-- ==== Sys2Proof/Word.lean ====
section
/-! DEFINITION. The widths of the machine (00_scope.md R8, R10): nibble, byte, word, data memory address. -/

namespace Sys2Proof

/-- Four bits: the accumulator, every data register, one location of data memory (R8, R10). -/
abbrev Nibble := BitVec 4

/-- Eight bits: one location of external memory, a register pair, an offset in a bank (R8, R10). -/
abbrev Byte := BitVec 8

/-- Sixteen bits: one location of program memory, an instruction word, a program or external address (R8, R10). -/
abbrev Word := BitVec 16

/-- Twelve bits: a data memory address, bank number then offset (20_memory.md R74). -/
abbrev DataAddr := BitVec 12

end Sys2Proof
end

