-- ==== Sys2Proof/Config.lean ====
section
/-! DEFINITION. What the architecture leaves to the device (00_scope.md R8), as plain data, and the values
the spec leaves open (92_eei_decisions.md, 93_implementation_defined.md), as constants without a body. -/

namespace Sys2Proof

/-- `CORE` of 00_scope.md R8: which of the two cores (R2). -/
inductive CoreKind where
  | nx250
  | nx300
  deriving DecidableEq, Repr

/-- The two admissible values of `OBJ1_CARRY` (20_memory.md R81, D4): where "obj+1" of an 8-bit transfer lies
when the pair is 0FFH. -/
inductive Obj1Carry where
  | sameBank
  | nextBank
  deriving DecidableEq, Repr, Inhabited

/-- A window of addresses: `size` consecutive addresses from `base` on. -/
structure Region where
  base : Nat
  size : Nat
  deriving DecidableEq, Repr

/-- The address lies in the window. -/
def Region.has (r : Region) (a : Nat) : Bool := decide (r.base ≤ a ∧ a < r.base + r.size)

/-- The parameters a device fixes (00_scope.md R8) and no instruction changes. The program image is
`Machine.State.pm`; the interrupt environment is `Machine.State.env`. -/
structure Device where
  /-- `CORE` (R2, R148). -/
  core : CoreKind
  /-- `DM_IMPL`: the implemented data RAM addresses (20_memory.md R78). -/
  dmImpl : List Region
  /-- `XM`: the external addresses that are plain storage. At every other external address sits a device whose
  answers the spec does not give (20_memory.md R79). -/
  xmStorage : List Region
  /-- `MELODY`: whether there is a melody circuit (48_control.md R464). -/
  melody : Bool
  /-- `OBJ1_CARRY` (20_memory.md R81). -/
  obj1Carry : Obj1Carry
  deriving DecidableEq, Repr

/-- What the `n`-th drawn nibble is: a read of a peripheral SFR (R77, D23), a register an 8-bit load
addresses (R90, U2). -/
opaque Config.freeNibble : Nat → Nibble

/-- What the `n`-th drawn byte is: a read of external memory at a device (R79, D22). -/
opaque Config.freeByte : Nat → Byte

/-- `RESET_RAM` (10_state.md R61, U12): what the data RAM nibble at address `a` holds after the `k`-th reset,
until it is written. -/
opaque Config.resetRam (k a : Nat) : Nibble

/-- What the external memory byte at address `a` holds after the `k`-th reset, until it is written
(10_state.md R61, U12). -/
opaque Config.resetXm (k a : Nat) : Byte

/-- `RESET_G` (10_state.md R61, D50) at the `k`-th system reset during a run. -/
opaque Config.resetG (k : Nat) : Bool

/-- `RESET_MIE_SAVED` (10_state.md R61, D51) at the `k`-th system reset during a run. -/
opaque Config.resetMieSaved (k : Nat) : Bool

/-- `RESET_STACKS` (10_state.md R61, D51): call stack slot `i` after the `k`-th system reset during a run. -/
opaque Config.resetCstack (k i : Nat) : Word

/-- `RESET_STACKS` (10_state.md R61, D51): register stack slot `i` after the `k`-th system reset during a run. -/
opaque Config.resetRstack (k i : Nat) : Word

/-- `OBJ1_CARRY` (R81, D4) of the device the reset state describes: one of the two admissible values. -/
opaque Config.obj1Carry : Obj1Carry

/-- An unknown rearrangement of the sixteen nibbles, from which `FLAGPACK` is made: every injective packing of
(Z, C, G) into a nibble is some rearrangement of the packing 0 : Z : C : G (10_state.md R36, D8). -/
opaque Config.flagPerm : Equiv.Perm Nibble

/-- What `FLAGUNPACK` answers, as (Z, C, G), on the eight nibbles that `FLAGPACK` never gives
(10_state.md R36, D8). -/
opaque Config.flagUnpackOther : Nibble → Bool × Bool × Bool

end Sys2Proof
end

