-- ==== Sys2Proof/Syntax.lean ====
section
/-! DEFINITION. The instruction set as abstract syntax: one constructor of `Instr` per row of
spec/opcode_table.json, in the table's order, and `Instr.view`, which says of each constructor the operation
and the operand form it names (20_memory.md R83 to R102). -/

namespace Sys2Proof

/-- The two pointer pairs (10_state.md R28). -/
inductive Pair where
  | hl
  | xy
  deriving DecidableEq, Repr

/-- The two bank registers (10_state.md R29). -/
inductive Bank where
  | cbr
  | ebr
  deriving DecidableEq, Repr

/-- The eight register indirect operand forms: `[HL]`, `[XY]`, `E:[HL]`, `E:[XY]` and the same with
post-increment (20_memory.md R86 to R88). -/
inductive Ind where
  | hl
  | xy
  | eHl
  | eXy
  | hlInc
  | xyInc
  | eHlInc
  | eXyInc
  deriving DecidableEq, Repr

/-- The four indirect forms without post-increment: all that MMOV and BMOV have (44_mask_bit.md R335, R340). -/
inductive IndFixed where
  | hl
  | xy
  | eHl
  | eXy
  deriving DecidableEq, Repr

/-- Operand forms of the sixteen accumulator operations: `sfr`, `¥cur`, indirect (R84 to R87). -/
inductive AluObj where
  | sfr (r : Byte)
  | cur (r : Byte)
  | ind (m : Ind)
  deriving DecidableEq, Repr

/-- Operand forms of the immediate, mask, bit and base-n operations: `¥cur`, indirect (R85 to R87). -/
inductive ImmObj where
  | cur (r : Byte)
  | ind (m : Ind)
  deriving DecidableEq, Repr

/-- Operand forms of MOV A, obj and MOV obj, A: `direct`, indirect (R83, R86, R87). -/
inductive MovObj where
  | direct (r : DataAddr)
  | ind (m : Ind)
  deriving DecidableEq, Repr

/-- The sixteen operations of formats F-SFR and F-CUR (30_encoding.md R139). -/
inductive AluOp where
  | inc | dec | rol | ror | add | adc | adcd | sub | sbc | sbcd | cmp | and | or | xor | xch | mtst
  deriving DecidableEq, Repr

/-- The immediate operations (30_encoding.md R142) and the three mask mnemonics that share words with
AND, OR and XOR (R146). -/
inductive ImmOp where
  | mov | add | sub | cmp | and | or | xor | mtst | mclr | mset | mnot
  deriving DecidableEq, Repr

/-- The bit operations, each another name for words of an immediate operation (30_encoding.md R146). -/
inductive BitOp where
  | btst | bclr | bset | bnot
  deriving DecidableEq, Repr

/-- The two base-n operations (42_arithmetic.md R264, R269). -/
inductive BaseOp where
  | adcj | sbcj
  deriving DecidableEq, Repr

/-- Which byte of a program memory word: MOVHB or MOVLB (20_memory.md R80). -/
inductive Half where
  | hb | lb
  deriving DecidableEq, Repr

/-- The address of an 8-bit transfer outside data memory: RA, or the second word (20_memory.md R93, R95, R98, R99). -/
inductive FarAddr where
  | ra
  | adr (w : Word)
  deriving DecidableEq, Repr

/-- The operands of FCLR and FSET (20_memory.md R101). -/
inductive FlagSel where
  | c | z | g | flag
  deriving DecidableEq, Repr

/-- The conditional branches, with the second spellings BLT, BGE, BEQ, BNE (47_branch_call.md R436). -/
inductive Cond where
  | bng | bc | blt | bnc | bge | bz | beq | bnz | bne | ble | bgt
  deriving DecidableEq, Repr

/-- The registers MOV reg, #i4 names (48_control.md R465). -/
inductive Reg where
  | ebr | cbr | y | x | l | h | ra0 | ra1 | ra2 | ra3
  deriving DecidableEq, Repr

/-- The instructions: one constructor per row of spec/opcode_table.json, in its order. An address, an offset,
a displacement and an immediate are the bits of the encoding; a bit number is 0 to 3; the base of ADCJ and SBCJ
is the number the assembler writes (30_encoding.md R145 (f)), which `Instr.WellFormed` restricts. -/
inductive Instr where
  -- R232
  | incSfr (r : Byte)
  | incCur (r : Byte)
  | incHl
  | incXy
  | incEHl
  | incEXy
  | incHlInc
  | incXyInc
  | incEHlInc
  | incEXyInc
  -- R233
  | decSfr (r : Byte)
  | decCur (r : Byte)
  | decHl
  | decXy
  | decEHl
  | decEXy
  | decHlInc
  | decXyInc
  | decEHlInc
  | decEXyInc
  -- R230
  | rolSfr (r : Byte)
  | rolCur (r : Byte)
  | rolHl
  | rolXy
  | rolEHl
  | rolEXy
  | rolHlInc
  | rolXyInc
  | rolEHlInc
  | rolEXyInc
  -- R231
  | rorSfr (r : Byte)
  | rorCur (r : Byte)
  | rorHl
  | rorXy
  | rorEHl
  | rorEXy
  | rorHlInc
  | rorXyInc
  | rorEHlInc
  | rorEXyInc
  -- R260
  | addSfrA (r : Byte)
  | addCurA (r : Byte)
  | addHlA
  | addXyA
  | addEHlA
  | addEXyA
  | addHlIncA
  | addXyIncA
  | addEHlIncA
  | addEXyIncA
  -- R262
  | adcSfrA (r : Byte)
  | adcCurA (r : Byte)
  | adcHlA
  | adcXyA
  | adcEHlA
  | adcEXyA
  | adcHlIncA
  | adcXyIncA
  | adcEHlIncA
  | adcEXyIncA
  -- R263
  | adcdSfrA (r : Byte)
  | adcdCurA (r : Byte)
  | adcdHlA
  | adcdXyA
  | adcdEHlA
  | adcdEXyA
  | adcdHlIncA
  | adcdXyIncA
  | adcdEHlIncA
  | adcdEXyIncA
  -- R265
  | subSfrA (r : Byte)
  | subCurA (r : Byte)
  | subHlA
  | subXyA
  | subEHlA
  | subEXyA
  | subHlIncA
  | subXyIncA
  | subEHlIncA
  | subEXyIncA
  -- R267
  | sbcSfrA (r : Byte)
  | sbcCurA (r : Byte)
  | sbcHlA
  | sbcXyA
  | sbcEHlA
  | sbcEXyA
  | sbcHlIncA
  | sbcXyIncA
  | sbcEHlIncA
  | sbcEXyIncA
  -- R268
  | sbcdSfrA (r : Byte)
  | sbcdCurA (r : Byte)
  | sbcdHlA
  | sbcdXyA
  | sbcdEHlA
  | sbcdEXyA
  | sbcdHlIncA
  | sbcdXyIncA
  | sbcdEHlIncA
  | sbcdEXyIncA
  -- R300
  | cmpSfrA (r : Byte)
  | cmpCurA (r : Byte)
  | cmpHlA
  | cmpXyA
  | cmpEHlA
  | cmpEXyA
  | cmpHlIncA
  | cmpXyIncA
  | cmpEHlIncA
  | cmpEXyIncA
  -- R302
  | andSfrA (r : Byte)
  | andCurA (r : Byte)
  | andHlA
  | andXyA
  | andEHlA
  | andEXyA
  | andHlIncA
  | andXyIncA
  | andEHlIncA
  | andEXyIncA
  -- R304
  | orSfrA (r : Byte)
  | orCurA (r : Byte)
  | orHlA
  | orXyA
  | orEHlA
  | orEXyA
  | orHlIncA
  | orXyIncA
  | orEHlIncA
  | orEXyIncA
  -- R306
  | xorSfrA (r : Byte)
  | xorCurA (r : Byte)
  | xorHlA
  | xorXyA
  | xorEHlA
  | xorEXyA
  | xorHlIncA
  | xorXyIncA
  | xorEHlIncA
  | xorEXyIncA
  -- R204
  | xchASfr (r : Byte)
  | xchACur (r : Byte)
  | xchAHl
  | xchAXy
  | xchAEHl
  | xchAEXy
  | xchAHlInc
  | xchAXyInc
  | xchAEHlInc
  | xchAEXyInc
  -- R330
  | mtstSfrA (r : Byte)
  | mtstCurA (r : Byte)
  | mtstHlA
  | mtstXyA
  | mtstEHlA
  | mtstEXyA
  | mtstHlIncA
  | mtstXyIncA
  | mtstEHlIncA
  | mtstEXyIncA
  -- R200
  | movADirect (r : BitVec 12)
  -- R202
  | movDirectA (r : BitVec 12)
  -- R200
  | movAHl
  -- R202
  | movHlA
  -- R200
  | movAXy
  -- R202
  | movXyA
  -- R200
  | movAEHl
  -- R202
  | movEHlA
  -- R200
  | movAEXy
  -- R202
  | movEXyA
  -- R200
  | movAHlInc
  -- R202
  | movHlIncA
  -- R200
  | movAXyInc
  -- R202
  | movXyIncA
  -- R200
  | movAEHlInc
  -- R202
  | movEHlIncA
  -- R200
  | movAEXyInc
  -- R202
  | movEXyIncA
  -- R201
  | movAI (i : Nibble)
  -- R203
  | movCurI (r : Byte) (i : Nibble)
  | movHlI (i : Nibble)
  | movXyI (i : Nibble)
  | movEHlI (i : Nibble)
  | movEXyI (i : Nibble)
  | movHlIncI (i : Nibble)
  | movXyIncI (i : Nibble)
  | movEHlIncI (i : Nibble)
  | movEXyIncI (i : Nibble)
  -- R261
  | addCurI (r : Byte) (i : Nibble)
  | addHlI (i : Nibble)
  | addXyI (i : Nibble)
  | addEHlI (i : Nibble)
  | addEXyI (i : Nibble)
  | addHlIncI (i : Nibble)
  | addXyIncI (i : Nibble)
  | addEHlIncI (i : Nibble)
  | addEXyIncI (i : Nibble)
  -- R266
  | subCurI (r : Byte) (i : Nibble)
  | subHlI (i : Nibble)
  | subXyI (i : Nibble)
  | subEHlI (i : Nibble)
  | subEXyI (i : Nibble)
  | subHlIncI (i : Nibble)
  | subXyIncI (i : Nibble)
  | subEHlIncI (i : Nibble)
  | subEXyIncI (i : Nibble)
  -- R301
  | cmpCurI (r : Byte) (i : Nibble)
  | cmpHlI (i : Nibble)
  | cmpXyI (i : Nibble)
  | cmpEHlI (i : Nibble)
  | cmpEXyI (i : Nibble)
  | cmpHlIncI (i : Nibble)
  | cmpXyIncI (i : Nibble)
  | cmpEHlIncI (i : Nibble)
  | cmpEXyIncI (i : Nibble)
  -- R303
  | andCurI (r : Byte) (i : Nibble)
  | andHlI (i : Nibble)
  | andXyI (i : Nibble)
  | andEHlI (i : Nibble)
  | andEXyI (i : Nibble)
  | andHlIncI (i : Nibble)
  | andXyIncI (i : Nibble)
  | andEHlIncI (i : Nibble)
  | andEXyIncI (i : Nibble)
  -- R305
  | orCurI (r : Byte) (i : Nibble)
  | orHlI (i : Nibble)
  | orXyI (i : Nibble)
  | orEHlI (i : Nibble)
  | orEXyI (i : Nibble)
  | orHlIncI (i : Nibble)
  | orXyIncI (i : Nibble)
  | orEHlIncI (i : Nibble)
  | orEXyIncI (i : Nibble)
  -- R307
  | xorCurI (r : Byte) (i : Nibble)
  | xorHlI (i : Nibble)
  | xorXyI (i : Nibble)
  | xorEHlI (i : Nibble)
  | xorEXyI (i : Nibble)
  | xorHlIncI (i : Nibble)
  | xorXyIncI (i : Nibble)
  | xorEHlIncI (i : Nibble)
  | xorEXyIncI (i : Nibble)
  -- R331
  | mtstCurM (r : Byte) (m : Nibble)
  | mtstHlM (m : Nibble)
  | mtstXyM (m : Nibble)
  | mtstEHlM (m : Nibble)
  | mtstEXyM (m : Nibble)
  | mtstHlIncM (m : Nibble)
  | mtstXyIncM (m : Nibble)
  | mtstEHlIncM (m : Nibble)
  | mtstEXyIncM (m : Nibble)
  -- R332
  | mclrCurM (r : Byte) (m : Nibble)
  | mclrHlM (m : Nibble)
  | mclrXyM (m : Nibble)
  | mclrEHlM (m : Nibble)
  | mclrEXyM (m : Nibble)
  | mclrHlIncM (m : Nibble)
  | mclrXyIncM (m : Nibble)
  | mclrEHlIncM (m : Nibble)
  | mclrEXyIncM (m : Nibble)
  -- R333
  | msetCurM (r : Byte) (m : Nibble)
  | msetHlM (m : Nibble)
  | msetXyM (m : Nibble)
  | msetEHlM (m : Nibble)
  | msetEXyM (m : Nibble)
  | msetHlIncM (m : Nibble)
  | msetXyIncM (m : Nibble)
  | msetEHlIncM (m : Nibble)
  | msetEXyIncM (m : Nibble)
  -- R334
  | mnotCurM (r : Byte) (m : Nibble)
  | mnotHlM (m : Nibble)
  | mnotXyM (m : Nibble)
  | mnotEHlM (m : Nibble)
  | mnotEXyM (m : Nibble)
  | mnotHlIncM (m : Nibble)
  | mnotXyIncM (m : Nibble)
  | mnotEHlIncM (m : Nibble)
  | mnotEXyIncM (m : Nibble)
  -- R336
  | btstCurN (r : Byte) (n : Fin 4)
  | btstHlN (n : Fin 4)
  | btstXyN (n : Fin 4)
  | btstEHlN (n : Fin 4)
  | btstEXyN (n : Fin 4)
  | btstHlIncN (n : Fin 4)
  | btstXyIncN (n : Fin 4)
  | btstEHlIncN (n : Fin 4)
  | btstEXyIncN (n : Fin 4)
  -- R337
  | bclrCurN (r : Byte) (n : Fin 4)
  | bclrHlN (n : Fin 4)
  | bclrXyN (n : Fin 4)
  | bclrEHlN (n : Fin 4)
  | bclrEXyN (n : Fin 4)
  | bclrHlIncN (n : Fin 4)
  | bclrXyIncN (n : Fin 4)
  | bclrEHlIncN (n : Fin 4)
  | bclrEXyIncN (n : Fin 4)
  -- R338
  | bsetCurN (r : Byte) (n : Fin 4)
  | bsetHlN (n : Fin 4)
  | bsetXyN (n : Fin 4)
  | bsetEHlN (n : Fin 4)
  | bsetEXyN (n : Fin 4)
  | bsetHlIncN (n : Fin 4)
  | bsetXyIncN (n : Fin 4)
  | bsetEHlIncN (n : Fin 4)
  | bsetEXyIncN (n : Fin 4)
  -- R339
  | bnotCurN (r : Byte) (n : Fin 4)
  | bnotHlN (n : Fin 4)
  | bnotXyN (n : Fin 4)
  | bnotEHlN (n : Fin 4)
  | bnotEXyN (n : Fin 4)
  | bnotHlIncN (n : Fin 4)
  | bnotXyIncN (n : Fin 4)
  | bnotEHlIncN (n : Fin 4)
  | bnotEXyIncN (n : Fin 4)
  -- R264
  | adcjCurN (r : Byte) (n : Nat)
  -- R269
  | sbcjCurN (r : Byte) (n : Nat)
  -- R264
  | adcjHlN (n : Nat)
  -- R269
  | sbcjHlN (n : Nat)
  -- R264
  | adcjXyN (n : Nat)
  -- R269
  | sbcjXyN (n : Nat)
  -- R264
  | adcjEHlN (n : Nat)
  -- R269
  | sbcjEHlN (n : Nat)
  -- R264
  | adcjEXyN (n : Nat)
  -- R269
  | sbcjEXyN (n : Nat)
  -- R264
  | adcjHlIncN (n : Nat)
  -- R269
  | sbcjHlIncN (n : Nat)
  -- R264
  | adcjXyIncN (n : Nat)
  -- R269
  | sbcjXyIncN (n : Nat)
  -- R264
  | adcjEHlIncN (n : Nat)
  -- R269
  | sbcjEHlIncN (n : Nat)
  -- R264
  | adcjEXyIncN (n : Nat)
  -- R269
  | sbcjEXyIncN (n : Nat)
  -- R335
  | mmovHl (m : Nibble) (n : Fin 4)
  | mmovXy (m : Nibble) (n : Fin 4)
  | mmovEHl (m : Nibble) (n : Fin 4)
  | mmovEXy (m : Nibble) (n : Fin 4)
  -- R340
  | bmovHl (k : Fin 4) (n : Fin 4)
  | bmovXy (k : Fin 4) (n : Fin 4)
  | bmovEHl (k : Fin 4) (n : Fin 4)
  | bmovEXy (k : Fin 4) (n : Fin 4)
  -- R370
  | movhbHlRa
  | movhbXyRa
  | movhbEHlRa
  | movhbEXyRa
  | movhbHlIncRa
  | movhbXyIncRa
  | movhbEHlIncRa
  | movhbEXyIncRa
  -- R371
  | movhbHlCadr (w : Word)
  | movhbXyCadr (w : Word)
  | movhbEHlCadr (w : Word)
  | movhbEXyCadr (w : Word)
  | movhbHlIncCadr (w : Word)
  | movhbXyIncCadr (w : Word)
  | movhbEHlIncCadr (w : Word)
  | movhbEXyIncCadr (w : Word)
  -- R372
  | movlbHlRa
  | movlbXyRa
  | movlbEHlRa
  | movlbEXyRa
  | movlbHlIncRa
  | movlbXyIncRa
  | movlbEHlIncRa
  | movlbEXyIncRa
  -- R373
  | movlbHlCadr (w : Word)
  | movlbXyCadr (w : Word)
  | movlbEHlCadr (w : Word)
  | movlbEXyCadr (w : Word)
  | movlbHlIncCadr (w : Word)
  | movlbXyIncCadr (w : Word)
  | movlbEHlIncCadr (w : Word)
  | movlbEXyIncCadr (w : Word)
  -- R374
  | movxbHlRa
  | movxbXyRa
  | movxbEHlRa
  | movxbEXyRa
  | movxbHlIncRa
  | movxbXyIncRa
  | movxbEHlIncRa
  | movxbEXyIncRa
  -- R376
  | movxbRaHl
  | movxbRaXy
  | movxbRaEHl
  | movxbRaEXy
  | movxbRaHlInc
  | movxbRaXyInc
  | movxbRaEHlInc
  | movxbRaEXyInc
  -- R375
  | movxbHlXadr (w : Word)
  | movxbXyXadr (w : Word)
  | movxbEHlXadr (w : Word)
  | movxbEXyXadr (w : Word)
  | movxbHlIncXadr (w : Word)
  | movxbXyIncXadr (w : Word)
  | movxbEHlIncXadr (w : Word)
  | movxbEXyIncXadr (w : Word)
  -- R377
  | movxbXadrHl (w : Word)
  | movxbXadrXy (w : Word)
  | movxbXadrEHl (w : Word)
  | movxbXadrEXy (w : Word)
  | movxbXadrHlInc (w : Word)
  | movxbXadrXyInc (w : Word)
  | movxbXadrEHlInc (w : Word)
  | movxbXadrEXyInc (w : Word)
  -- R460
  | nop
  -- R461
  | halt
  -- R406
  | fclrG
  -- R404
  | fclrC
  -- R405
  | fclrZ
  -- R407
  | fclrFlag
  -- R410
  | fsetG
  -- R408
  | fsetC
  -- R409
  | fsetZ
  -- R411
  | fsetFlag
  -- R433
  | rt
  -- R434
  | rti
  -- R435
  | rtnmi
  -- R462
  | ei
  -- R463
  | di
  -- R400
  | pushHl
  -- R401
  | pushXy
  -- R402
  | popHl
  -- R403
  | popXy
  -- R420
  | ljmp (w : Word)
  -- R431
  | lcal (w : Word)
  -- R464
  | msa (w : Word)
  -- R423
  | jmpPcA
  -- R234
  | incbHl
  | incbXy
  -- R235
  | incwRa
  -- R465
  | movEbrI (i : Nibble)
  | movCbrI (i : Nibble)
  | movYRegI (i : Nibble)
  | movXRegI (i : Nibble)
  | movLRegI (i : Nibble)
  | movHRegI (i : Nibble)
  | movRa0I (i : Nibble)
  | movRa1I (i : Nibble)
  | movRa2I (i : Nibble)
  | movRa3I (i : Nibble)
  -- R421
  | jmp (a : BitVec 12)
  -- R432
  | cal (a : BitVec 12)
  -- R430
  | bng (d : Byte)
  -- R422
  | sjmp (d : Byte)
  -- R424
  | bc (d : Byte)
  | blt (d : Byte)
  -- R425
  | bnc (d : Byte)
  | bge (d : Byte)
  -- R426
  | bz (d : Byte)
  | beq (d : Byte)
  -- R427
  | bnz (d : Byte)
  | bne (d : Byte)
  -- R428
  | ble (d : Byte)
  -- R429
  | bgt (d : Byte)
  deriving DecidableEq, Repr

/-- An instruction seen as an operation and an operand form. -/
inductive View where
  | alu (op : AluOp) (o : AluObj)
  | movToA (o : MovObj)
  | movFromA (o : MovObj)
  | movAImm (i : Nibble)
  | imm (op : ImmOp) (o : ImmObj) (i : Nibble)
  | bit (op : BitOp) (o : ImmObj) (n : Fin 4)
  | baseN (op : BaseOp) (o : ImmObj) (base : Nat)
  | mmov (o : IndFixed) (m : Nibble) (n : Fin 4)
  | bmov (o : IndFixed) (k n : Fin 4)
  | rom (half : Half) (o : Ind) (src : FarAddr)
  | xmLoad (o : Ind) (src : FarAddr)
  | xmStore (dst : FarAddr) (o : Ind)
  | push (p : Pair)
  | pop (p : Pair)
  | fclr (f : FlagSel)
  | fset (f : FlagSel)
  | ljmp (w : Word)
  | jmp (a : BitVec 12)
  | sjmp (d : Byte)
  | jmpPcA
  | branch (b : Cond) (d : Byte)
  | lcal (w : Word)
  | cal (a : BitVec 12)
  | rt
  | rti
  | rtnmi
  | nop
  | halt
  | ei
  | di
  | msa (w : Word)
  | movReg (r : Reg) (i : Nibble)
  | incb (p : Pair)
  | incw
  deriving DecidableEq, Repr

/-- The operation and the operand form each constructor names (the table's source_mnemonic column). -/
def Instr.view : Instr → View
  | .incSfr r => .alu .inc (.sfr r)
  | .incCur r => .alu .inc (.cur r)
  | .incHl => .alu .inc (.ind .hl)
  | .incXy => .alu .inc (.ind .xy)
  | .incEHl => .alu .inc (.ind .eHl)
  | .incEXy => .alu .inc (.ind .eXy)
  | .incHlInc => .alu .inc (.ind .hlInc)
  | .incXyInc => .alu .inc (.ind .xyInc)
  | .incEHlInc => .alu .inc (.ind .eHlInc)
  | .incEXyInc => .alu .inc (.ind .eXyInc)
  | .decSfr r => .alu .dec (.sfr r)
  | .decCur r => .alu .dec (.cur r)
  | .decHl => .alu .dec (.ind .hl)
  | .decXy => .alu .dec (.ind .xy)
  | .decEHl => .alu .dec (.ind .eHl)
  | .decEXy => .alu .dec (.ind .eXy)
  | .decHlInc => .alu .dec (.ind .hlInc)
  | .decXyInc => .alu .dec (.ind .xyInc)
  | .decEHlInc => .alu .dec (.ind .eHlInc)
  | .decEXyInc => .alu .dec (.ind .eXyInc)
  | .rolSfr r => .alu .rol (.sfr r)
  | .rolCur r => .alu .rol (.cur r)
  | .rolHl => .alu .rol (.ind .hl)
  | .rolXy => .alu .rol (.ind .xy)
  | .rolEHl => .alu .rol (.ind .eHl)
  | .rolEXy => .alu .rol (.ind .eXy)
  | .rolHlInc => .alu .rol (.ind .hlInc)
  | .rolXyInc => .alu .rol (.ind .xyInc)
  | .rolEHlInc => .alu .rol (.ind .eHlInc)
  | .rolEXyInc => .alu .rol (.ind .eXyInc)
  | .rorSfr r => .alu .ror (.sfr r)
  | .rorCur r => .alu .ror (.cur r)
  | .rorHl => .alu .ror (.ind .hl)
  | .rorXy => .alu .ror (.ind .xy)
  | .rorEHl => .alu .ror (.ind .eHl)
  | .rorEXy => .alu .ror (.ind .eXy)
  | .rorHlInc => .alu .ror (.ind .hlInc)
  | .rorXyInc => .alu .ror (.ind .xyInc)
  | .rorEHlInc => .alu .ror (.ind .eHlInc)
  | .rorEXyInc => .alu .ror (.ind .eXyInc)
  | .addSfrA r => .alu .add (.sfr r)
  | .addCurA r => .alu .add (.cur r)
  | .addHlA => .alu .add (.ind .hl)
  | .addXyA => .alu .add (.ind .xy)
  | .addEHlA => .alu .add (.ind .eHl)
  | .addEXyA => .alu .add (.ind .eXy)
  | .addHlIncA => .alu .add (.ind .hlInc)
  | .addXyIncA => .alu .add (.ind .xyInc)
  | .addEHlIncA => .alu .add (.ind .eHlInc)
  | .addEXyIncA => .alu .add (.ind .eXyInc)
  | .adcSfrA r => .alu .adc (.sfr r)
  | .adcCurA r => .alu .adc (.cur r)
  | .adcHlA => .alu .adc (.ind .hl)
  | .adcXyA => .alu .adc (.ind .xy)
  | .adcEHlA => .alu .adc (.ind .eHl)
  | .adcEXyA => .alu .adc (.ind .eXy)
  | .adcHlIncA => .alu .adc (.ind .hlInc)
  | .adcXyIncA => .alu .adc (.ind .xyInc)
  | .adcEHlIncA => .alu .adc (.ind .eHlInc)
  | .adcEXyIncA => .alu .adc (.ind .eXyInc)
  | .adcdSfrA r => .alu .adcd (.sfr r)
  | .adcdCurA r => .alu .adcd (.cur r)
  | .adcdHlA => .alu .adcd (.ind .hl)
  | .adcdXyA => .alu .adcd (.ind .xy)
  | .adcdEHlA => .alu .adcd (.ind .eHl)
  | .adcdEXyA => .alu .adcd (.ind .eXy)
  | .adcdHlIncA => .alu .adcd (.ind .hlInc)
  | .adcdXyIncA => .alu .adcd (.ind .xyInc)
  | .adcdEHlIncA => .alu .adcd (.ind .eHlInc)
  | .adcdEXyIncA => .alu .adcd (.ind .eXyInc)
  | .subSfrA r => .alu .sub (.sfr r)
  | .subCurA r => .alu .sub (.cur r)
  | .subHlA => .alu .sub (.ind .hl)
  | .subXyA => .alu .sub (.ind .xy)
  | .subEHlA => .alu .sub (.ind .eHl)
  | .subEXyA => .alu .sub (.ind .eXy)
  | .subHlIncA => .alu .sub (.ind .hlInc)
  | .subXyIncA => .alu .sub (.ind .xyInc)
  | .subEHlIncA => .alu .sub (.ind .eHlInc)
  | .subEXyIncA => .alu .sub (.ind .eXyInc)
  | .sbcSfrA r => .alu .sbc (.sfr r)
  | .sbcCurA r => .alu .sbc (.cur r)
  | .sbcHlA => .alu .sbc (.ind .hl)
  | .sbcXyA => .alu .sbc (.ind .xy)
  | .sbcEHlA => .alu .sbc (.ind .eHl)
  | .sbcEXyA => .alu .sbc (.ind .eXy)
  | .sbcHlIncA => .alu .sbc (.ind .hlInc)
  | .sbcXyIncA => .alu .sbc (.ind .xyInc)
  | .sbcEHlIncA => .alu .sbc (.ind .eHlInc)
  | .sbcEXyIncA => .alu .sbc (.ind .eXyInc)
  | .sbcdSfrA r => .alu .sbcd (.sfr r)
  | .sbcdCurA r => .alu .sbcd (.cur r)
  | .sbcdHlA => .alu .sbcd (.ind .hl)
  | .sbcdXyA => .alu .sbcd (.ind .xy)
  | .sbcdEHlA => .alu .sbcd (.ind .eHl)
  | .sbcdEXyA => .alu .sbcd (.ind .eXy)
  | .sbcdHlIncA => .alu .sbcd (.ind .hlInc)
  | .sbcdXyIncA => .alu .sbcd (.ind .xyInc)
  | .sbcdEHlIncA => .alu .sbcd (.ind .eHlInc)
  | .sbcdEXyIncA => .alu .sbcd (.ind .eXyInc)
  | .cmpSfrA r => .alu .cmp (.sfr r)
  | .cmpCurA r => .alu .cmp (.cur r)
  | .cmpHlA => .alu .cmp (.ind .hl)
  | .cmpXyA => .alu .cmp (.ind .xy)
  | .cmpEHlA => .alu .cmp (.ind .eHl)
  | .cmpEXyA => .alu .cmp (.ind .eXy)
  | .cmpHlIncA => .alu .cmp (.ind .hlInc)
  | .cmpXyIncA => .alu .cmp (.ind .xyInc)
  | .cmpEHlIncA => .alu .cmp (.ind .eHlInc)
  | .cmpEXyIncA => .alu .cmp (.ind .eXyInc)
  | .andSfrA r => .alu .and (.sfr r)
  | .andCurA r => .alu .and (.cur r)
  | .andHlA => .alu .and (.ind .hl)
  | .andXyA => .alu .and (.ind .xy)
  | .andEHlA => .alu .and (.ind .eHl)
  | .andEXyA => .alu .and (.ind .eXy)
  | .andHlIncA => .alu .and (.ind .hlInc)
  | .andXyIncA => .alu .and (.ind .xyInc)
  | .andEHlIncA => .alu .and (.ind .eHlInc)
  | .andEXyIncA => .alu .and (.ind .eXyInc)
  | .orSfrA r => .alu .or (.sfr r)
  | .orCurA r => .alu .or (.cur r)
  | .orHlA => .alu .or (.ind .hl)
  | .orXyA => .alu .or (.ind .xy)
  | .orEHlA => .alu .or (.ind .eHl)
  | .orEXyA => .alu .or (.ind .eXy)
  | .orHlIncA => .alu .or (.ind .hlInc)
  | .orXyIncA => .alu .or (.ind .xyInc)
  | .orEHlIncA => .alu .or (.ind .eHlInc)
  | .orEXyIncA => .alu .or (.ind .eXyInc)
  | .xorSfrA r => .alu .xor (.sfr r)
  | .xorCurA r => .alu .xor (.cur r)
  | .xorHlA => .alu .xor (.ind .hl)
  | .xorXyA => .alu .xor (.ind .xy)
  | .xorEHlA => .alu .xor (.ind .eHl)
  | .xorEXyA => .alu .xor (.ind .eXy)
  | .xorHlIncA => .alu .xor (.ind .hlInc)
  | .xorXyIncA => .alu .xor (.ind .xyInc)
  | .xorEHlIncA => .alu .xor (.ind .eHlInc)
  | .xorEXyIncA => .alu .xor (.ind .eXyInc)
  | .xchASfr r => .alu .xch (.sfr r)
  | .xchACur r => .alu .xch (.cur r)
  | .xchAHl => .alu .xch (.ind .hl)
  | .xchAXy => .alu .xch (.ind .xy)
  | .xchAEHl => .alu .xch (.ind .eHl)
  | .xchAEXy => .alu .xch (.ind .eXy)
  | .xchAHlInc => .alu .xch (.ind .hlInc)
  | .xchAXyInc => .alu .xch (.ind .xyInc)
  | .xchAEHlInc => .alu .xch (.ind .eHlInc)
  | .xchAEXyInc => .alu .xch (.ind .eXyInc)
  | .mtstSfrA r => .alu .mtst (.sfr r)
  | .mtstCurA r => .alu .mtst (.cur r)
  | .mtstHlA => .alu .mtst (.ind .hl)
  | .mtstXyA => .alu .mtst (.ind .xy)
  | .mtstEHlA => .alu .mtst (.ind .eHl)
  | .mtstEXyA => .alu .mtst (.ind .eXy)
  | .mtstHlIncA => .alu .mtst (.ind .hlInc)
  | .mtstXyIncA => .alu .mtst (.ind .xyInc)
  | .mtstEHlIncA => .alu .mtst (.ind .eHlInc)
  | .mtstEXyIncA => .alu .mtst (.ind .eXyInc)
  | .movADirect r => .movToA (.direct r)
  | .movDirectA r => .movFromA (.direct r)
  | .movAHl => .movToA (.ind .hl)
  | .movHlA => .movFromA (.ind .hl)
  | .movAXy => .movToA (.ind .xy)
  | .movXyA => .movFromA (.ind .xy)
  | .movAEHl => .movToA (.ind .eHl)
  | .movEHlA => .movFromA (.ind .eHl)
  | .movAEXy => .movToA (.ind .eXy)
  | .movEXyA => .movFromA (.ind .eXy)
  | .movAHlInc => .movToA (.ind .hlInc)
  | .movHlIncA => .movFromA (.ind .hlInc)
  | .movAXyInc => .movToA (.ind .xyInc)
  | .movXyIncA => .movFromA (.ind .xyInc)
  | .movAEHlInc => .movToA (.ind .eHlInc)
  | .movEHlIncA => .movFromA (.ind .eHlInc)
  | .movAEXyInc => .movToA (.ind .eXyInc)
  | .movEXyIncA => .movFromA (.ind .eXyInc)
  | .movAI i => .movAImm i
  | .movCurI r i => .imm .mov (.cur r) i
  | .movHlI i => .imm .mov (.ind .hl) i
  | .movXyI i => .imm .mov (.ind .xy) i
  | .movEHlI i => .imm .mov (.ind .eHl) i
  | .movEXyI i => .imm .mov (.ind .eXy) i
  | .movHlIncI i => .imm .mov (.ind .hlInc) i
  | .movXyIncI i => .imm .mov (.ind .xyInc) i
  | .movEHlIncI i => .imm .mov (.ind .eHlInc) i
  | .movEXyIncI i => .imm .mov (.ind .eXyInc) i
  | .addCurI r i => .imm .add (.cur r) i
  | .addHlI i => .imm .add (.ind .hl) i
  | .addXyI i => .imm .add (.ind .xy) i
  | .addEHlI i => .imm .add (.ind .eHl) i
  | .addEXyI i => .imm .add (.ind .eXy) i
  | .addHlIncI i => .imm .add (.ind .hlInc) i
  | .addXyIncI i => .imm .add (.ind .xyInc) i
  | .addEHlIncI i => .imm .add (.ind .eHlInc) i
  | .addEXyIncI i => .imm .add (.ind .eXyInc) i
  | .subCurI r i => .imm .sub (.cur r) i
  | .subHlI i => .imm .sub (.ind .hl) i
  | .subXyI i => .imm .sub (.ind .xy) i
  | .subEHlI i => .imm .sub (.ind .eHl) i
  | .subEXyI i => .imm .sub (.ind .eXy) i
  | .subHlIncI i => .imm .sub (.ind .hlInc) i
  | .subXyIncI i => .imm .sub (.ind .xyInc) i
  | .subEHlIncI i => .imm .sub (.ind .eHlInc) i
  | .subEXyIncI i => .imm .sub (.ind .eXyInc) i
  | .cmpCurI r i => .imm .cmp (.cur r) i
  | .cmpHlI i => .imm .cmp (.ind .hl) i
  | .cmpXyI i => .imm .cmp (.ind .xy) i
  | .cmpEHlI i => .imm .cmp (.ind .eHl) i
  | .cmpEXyI i => .imm .cmp (.ind .eXy) i
  | .cmpHlIncI i => .imm .cmp (.ind .hlInc) i
  | .cmpXyIncI i => .imm .cmp (.ind .xyInc) i
  | .cmpEHlIncI i => .imm .cmp (.ind .eHlInc) i
  | .cmpEXyIncI i => .imm .cmp (.ind .eXyInc) i
  | .andCurI r i => .imm .and (.cur r) i
  | .andHlI i => .imm .and (.ind .hl) i
  | .andXyI i => .imm .and (.ind .xy) i
  | .andEHlI i => .imm .and (.ind .eHl) i
  | .andEXyI i => .imm .and (.ind .eXy) i
  | .andHlIncI i => .imm .and (.ind .hlInc) i
  | .andXyIncI i => .imm .and (.ind .xyInc) i
  | .andEHlIncI i => .imm .and (.ind .eHlInc) i
  | .andEXyIncI i => .imm .and (.ind .eXyInc) i
  | .orCurI r i => .imm .or (.cur r) i
  | .orHlI i => .imm .or (.ind .hl) i
  | .orXyI i => .imm .or (.ind .xy) i
  | .orEHlI i => .imm .or (.ind .eHl) i
  | .orEXyI i => .imm .or (.ind .eXy) i
  | .orHlIncI i => .imm .or (.ind .hlInc) i
  | .orXyIncI i => .imm .or (.ind .xyInc) i
  | .orEHlIncI i => .imm .or (.ind .eHlInc) i
  | .orEXyIncI i => .imm .or (.ind .eXyInc) i
  | .xorCurI r i => .imm .xor (.cur r) i
  | .xorHlI i => .imm .xor (.ind .hl) i
  | .xorXyI i => .imm .xor (.ind .xy) i
  | .xorEHlI i => .imm .xor (.ind .eHl) i
  | .xorEXyI i => .imm .xor (.ind .eXy) i
  | .xorHlIncI i => .imm .xor (.ind .hlInc) i
  | .xorXyIncI i => .imm .xor (.ind .xyInc) i
  | .xorEHlIncI i => .imm .xor (.ind .eHlInc) i
  | .xorEXyIncI i => .imm .xor (.ind .eXyInc) i
  | .mtstCurM r m => .imm .mtst (.cur r) m
  | .mtstHlM m => .imm .mtst (.ind .hl) m
  | .mtstXyM m => .imm .mtst (.ind .xy) m
  | .mtstEHlM m => .imm .mtst (.ind .eHl) m
  | .mtstEXyM m => .imm .mtst (.ind .eXy) m
  | .mtstHlIncM m => .imm .mtst (.ind .hlInc) m
  | .mtstXyIncM m => .imm .mtst (.ind .xyInc) m
  | .mtstEHlIncM m => .imm .mtst (.ind .eHlInc) m
  | .mtstEXyIncM m => .imm .mtst (.ind .eXyInc) m
  | .mclrCurM r m => .imm .mclr (.cur r) m
  | .mclrHlM m => .imm .mclr (.ind .hl) m
  | .mclrXyM m => .imm .mclr (.ind .xy) m
  | .mclrEHlM m => .imm .mclr (.ind .eHl) m
  | .mclrEXyM m => .imm .mclr (.ind .eXy) m
  | .mclrHlIncM m => .imm .mclr (.ind .hlInc) m
  | .mclrXyIncM m => .imm .mclr (.ind .xyInc) m
  | .mclrEHlIncM m => .imm .mclr (.ind .eHlInc) m
  | .mclrEXyIncM m => .imm .mclr (.ind .eXyInc) m
  | .msetCurM r m => .imm .mset (.cur r) m
  | .msetHlM m => .imm .mset (.ind .hl) m
  | .msetXyM m => .imm .mset (.ind .xy) m
  | .msetEHlM m => .imm .mset (.ind .eHl) m
  | .msetEXyM m => .imm .mset (.ind .eXy) m
  | .msetHlIncM m => .imm .mset (.ind .hlInc) m
  | .msetXyIncM m => .imm .mset (.ind .xyInc) m
  | .msetEHlIncM m => .imm .mset (.ind .eHlInc) m
  | .msetEXyIncM m => .imm .mset (.ind .eXyInc) m
  | .mnotCurM r m => .imm .mnot (.cur r) m
  | .mnotHlM m => .imm .mnot (.ind .hl) m
  | .mnotXyM m => .imm .mnot (.ind .xy) m
  | .mnotEHlM m => .imm .mnot (.ind .eHl) m
  | .mnotEXyM m => .imm .mnot (.ind .eXy) m
  | .mnotHlIncM m => .imm .mnot (.ind .hlInc) m
  | .mnotXyIncM m => .imm .mnot (.ind .xyInc) m
  | .mnotEHlIncM m => .imm .mnot (.ind .eHlInc) m
  | .mnotEXyIncM m => .imm .mnot (.ind .eXyInc) m
  | .btstCurN r n => .bit .btst (.cur r) n
  | .btstHlN n => .bit .btst (.ind .hl) n
  | .btstXyN n => .bit .btst (.ind .xy) n
  | .btstEHlN n => .bit .btst (.ind .eHl) n
  | .btstEXyN n => .bit .btst (.ind .eXy) n
  | .btstHlIncN n => .bit .btst (.ind .hlInc) n
  | .btstXyIncN n => .bit .btst (.ind .xyInc) n
  | .btstEHlIncN n => .bit .btst (.ind .eHlInc) n
  | .btstEXyIncN n => .bit .btst (.ind .eXyInc) n
  | .bclrCurN r n => .bit .bclr (.cur r) n
  | .bclrHlN n => .bit .bclr (.ind .hl) n
  | .bclrXyN n => .bit .bclr (.ind .xy) n
  | .bclrEHlN n => .bit .bclr (.ind .eHl) n
  | .bclrEXyN n => .bit .bclr (.ind .eXy) n
  | .bclrHlIncN n => .bit .bclr (.ind .hlInc) n
  | .bclrXyIncN n => .bit .bclr (.ind .xyInc) n
  | .bclrEHlIncN n => .bit .bclr (.ind .eHlInc) n
  | .bclrEXyIncN n => .bit .bclr (.ind .eXyInc) n
  | .bsetCurN r n => .bit .bset (.cur r) n
  | .bsetHlN n => .bit .bset (.ind .hl) n
  | .bsetXyN n => .bit .bset (.ind .xy) n
  | .bsetEHlN n => .bit .bset (.ind .eHl) n
  | .bsetEXyN n => .bit .bset (.ind .eXy) n
  | .bsetHlIncN n => .bit .bset (.ind .hlInc) n
  | .bsetXyIncN n => .bit .bset (.ind .xyInc) n
  | .bsetEHlIncN n => .bit .bset (.ind .eHlInc) n
  | .bsetEXyIncN n => .bit .bset (.ind .eXyInc) n
  | .bnotCurN r n => .bit .bnot (.cur r) n
  | .bnotHlN n => .bit .bnot (.ind .hl) n
  | .bnotXyN n => .bit .bnot (.ind .xy) n
  | .bnotEHlN n => .bit .bnot (.ind .eHl) n
  | .bnotEXyN n => .bit .bnot (.ind .eXy) n
  | .bnotHlIncN n => .bit .bnot (.ind .hlInc) n
  | .bnotXyIncN n => .bit .bnot (.ind .xyInc) n
  | .bnotEHlIncN n => .bit .bnot (.ind .eHlInc) n
  | .bnotEXyIncN n => .bit .bnot (.ind .eXyInc) n
  | .adcjCurN r n => .baseN .adcj (.cur r) n
  | .sbcjCurN r n => .baseN .sbcj (.cur r) n
  | .adcjHlN n => .baseN .adcj (.ind .hl) n
  | .sbcjHlN n => .baseN .sbcj (.ind .hl) n
  | .adcjXyN n => .baseN .adcj (.ind .xy) n
  | .sbcjXyN n => .baseN .sbcj (.ind .xy) n
  | .adcjEHlN n => .baseN .adcj (.ind .eHl) n
  | .sbcjEHlN n => .baseN .sbcj (.ind .eHl) n
  | .adcjEXyN n => .baseN .adcj (.ind .eXy) n
  | .sbcjEXyN n => .baseN .sbcj (.ind .eXy) n
  | .adcjHlIncN n => .baseN .adcj (.ind .hlInc) n
  | .sbcjHlIncN n => .baseN .sbcj (.ind .hlInc) n
  | .adcjXyIncN n => .baseN .adcj (.ind .xyInc) n
  | .sbcjXyIncN n => .baseN .sbcj (.ind .xyInc) n
  | .adcjEHlIncN n => .baseN .adcj (.ind .eHlInc) n
  | .sbcjEHlIncN n => .baseN .sbcj (.ind .eHlInc) n
  | .adcjEXyIncN n => .baseN .adcj (.ind .eXyInc) n
  | .sbcjEXyIncN n => .baseN .sbcj (.ind .eXyInc) n
  | .mmovHl m n => .mmov .hl m n
  | .mmovXy m n => .mmov .xy m n
  | .mmovEHl m n => .mmov .eHl m n
  | .mmovEXy m n => .mmov .eXy m n
  | .bmovHl k n => .bmov .hl k n
  | .bmovXy k n => .bmov .xy k n
  | .bmovEHl k n => .bmov .eHl k n
  | .bmovEXy k n => .bmov .eXy k n
  | .movhbHlRa => .rom .hb .hl .ra
  | .movhbXyRa => .rom .hb .xy .ra
  | .movhbEHlRa => .rom .hb .eHl .ra
  | .movhbEXyRa => .rom .hb .eXy .ra
  | .movhbHlIncRa => .rom .hb .hlInc .ra
  | .movhbXyIncRa => .rom .hb .xyInc .ra
  | .movhbEHlIncRa => .rom .hb .eHlInc .ra
  | .movhbEXyIncRa => .rom .hb .eXyInc .ra
  | .movhbHlCadr w => .rom .hb .hl (.adr w)
  | .movhbXyCadr w => .rom .hb .xy (.adr w)
  | .movhbEHlCadr w => .rom .hb .eHl (.adr w)
  | .movhbEXyCadr w => .rom .hb .eXy (.adr w)
  | .movhbHlIncCadr w => .rom .hb .hlInc (.adr w)
  | .movhbXyIncCadr w => .rom .hb .xyInc (.adr w)
  | .movhbEHlIncCadr w => .rom .hb .eHlInc (.adr w)
  | .movhbEXyIncCadr w => .rom .hb .eXyInc (.adr w)
  | .movlbHlRa => .rom .lb .hl .ra
  | .movlbXyRa => .rom .lb .xy .ra
  | .movlbEHlRa => .rom .lb .eHl .ra
  | .movlbEXyRa => .rom .lb .eXy .ra
  | .movlbHlIncRa => .rom .lb .hlInc .ra
  | .movlbXyIncRa => .rom .lb .xyInc .ra
  | .movlbEHlIncRa => .rom .lb .eHlInc .ra
  | .movlbEXyIncRa => .rom .lb .eXyInc .ra
  | .movlbHlCadr w => .rom .lb .hl (.adr w)
  | .movlbXyCadr w => .rom .lb .xy (.adr w)
  | .movlbEHlCadr w => .rom .lb .eHl (.adr w)
  | .movlbEXyCadr w => .rom .lb .eXy (.adr w)
  | .movlbHlIncCadr w => .rom .lb .hlInc (.adr w)
  | .movlbXyIncCadr w => .rom .lb .xyInc (.adr w)
  | .movlbEHlIncCadr w => .rom .lb .eHlInc (.adr w)
  | .movlbEXyIncCadr w => .rom .lb .eXyInc (.adr w)
  | .movxbHlRa => .xmLoad .hl .ra
  | .movxbXyRa => .xmLoad .xy .ra
  | .movxbEHlRa => .xmLoad .eHl .ra
  | .movxbEXyRa => .xmLoad .eXy .ra
  | .movxbHlIncRa => .xmLoad .hlInc .ra
  | .movxbXyIncRa => .xmLoad .xyInc .ra
  | .movxbEHlIncRa => .xmLoad .eHlInc .ra
  | .movxbEXyIncRa => .xmLoad .eXyInc .ra
  | .movxbRaHl => .xmStore .ra .hl
  | .movxbRaXy => .xmStore .ra .xy
  | .movxbRaEHl => .xmStore .ra .eHl
  | .movxbRaEXy => .xmStore .ra .eXy
  | .movxbRaHlInc => .xmStore .ra .hlInc
  | .movxbRaXyInc => .xmStore .ra .xyInc
  | .movxbRaEHlInc => .xmStore .ra .eHlInc
  | .movxbRaEXyInc => .xmStore .ra .eXyInc
  | .movxbHlXadr w => .xmLoad .hl (.adr w)
  | .movxbXyXadr w => .xmLoad .xy (.adr w)
  | .movxbEHlXadr w => .xmLoad .eHl (.adr w)
  | .movxbEXyXadr w => .xmLoad .eXy (.adr w)
  | .movxbHlIncXadr w => .xmLoad .hlInc (.adr w)
  | .movxbXyIncXadr w => .xmLoad .xyInc (.adr w)
  | .movxbEHlIncXadr w => .xmLoad .eHlInc (.adr w)
  | .movxbEXyIncXadr w => .xmLoad .eXyInc (.adr w)
  | .movxbXadrHl w => .xmStore (.adr w) .hl
  | .movxbXadrXy w => .xmStore (.adr w) .xy
  | .movxbXadrEHl w => .xmStore (.adr w) .eHl
  | .movxbXadrEXy w => .xmStore (.adr w) .eXy
  | .movxbXadrHlInc w => .xmStore (.adr w) .hlInc
  | .movxbXadrXyInc w => .xmStore (.adr w) .xyInc
  | .movxbXadrEHlInc w => .xmStore (.adr w) .eHlInc
  | .movxbXadrEXyInc w => .xmStore (.adr w) .eXyInc
  | .nop => .nop
  | .halt => .halt
  | .fclrG => .fclr .g
  | .fclrC => .fclr .c
  | .fclrZ => .fclr .z
  | .fclrFlag => .fclr .flag
  | .fsetG => .fset .g
  | .fsetC => .fset .c
  | .fsetZ => .fset .z
  | .fsetFlag => .fset .flag
  | .rt => .rt
  | .rti => .rti
  | .rtnmi => .rtnmi
  | .ei => .ei
  | .di => .di
  | .pushHl => .push .hl
  | .pushXy => .push .xy
  | .popHl => .pop .hl
  | .popXy => .pop .xy
  | .ljmp w => .ljmp w
  | .lcal w => .lcal w
  | .msa w => .msa w
  | .jmpPcA => .jmpPcA
  | .incbHl => .incb .hl
  | .incbXy => .incb .xy
  | .incwRa => .incw
  | .movEbrI i => .movReg .ebr i
  | .movCbrI i => .movReg .cbr i
  | .movYRegI i => .movReg .y i
  | .movXRegI i => .movReg .x i
  | .movLRegI i => .movReg .l i
  | .movHRegI i => .movReg .h i
  | .movRa0I i => .movReg .ra0 i
  | .movRa1I i => .movReg .ra1 i
  | .movRa2I i => .movReg .ra2 i
  | .movRa3I i => .movReg .ra3 i
  | .jmp a => .jmp a
  | .cal a => .cal a
  | .bng d => .branch .bng d
  | .sjmp d => .sjmp d
  | .bc d => .branch .bc d
  | .blt d => .branch .blt d
  | .bnc d => .branch .bnc d
  | .bge d => .branch .bge d
  | .bz d => .branch .bz d
  | .beq d => .branch .beq d
  | .bnz d => .branch .bnz d
  | .bne d => .branch .bne d
  | .ble d => .branch .ble d
  | .bgt d => .branch .bgt d

end Sys2Proof
end

