-- ==== Sys2Proof/WellFormed.lean ====
section
/-! DEFINITION. Which terms of `Instr` are instructions of the machine, and on which core. -/

namespace Sys2Proof

/-- The bases of ADCJ and SBCJ: "even number from 2 to 16" (42_arithmetic.md R264, R269; 30_encoding.md R145 (f)). -/
def baseOk (n : Nat) : Bool := decide (n % 2 = 0 ∧ 2 ≤ n ∧ n ≤ 16)

/-- The operands lie in the ranges the spec gives. Every range but that of the base is kept by the operand's type. -/
def View.wellFormed : View → Bool
  | .baseN _ _ n => baseOk n
  | .alu _ _ => true
  | .movToA _ => true
  | .movFromA _ => true
  | .movAImm _ => true
  | .imm _ _ _ => true
  | .bit _ _ _ => true
  | .mmov _ _ _ => true
  | .bmov _ _ _ => true
  | .rom _ _ _ => true
  | .xmLoad _ _ => true
  | .xmStore _ _ => true
  | .push _ => true
  | .pop _ => true
  | .fclr _ => true
  | .fset _ => true
  | .ljmp _ => true
  | .jmp _ => true
  | .sjmp _ => true
  | .jmpPcA => true
  | .branch _ _ => true
  | .lcal _ => true
  | .cal _ => true
  | .rt => true
  | .rti => true
  | .rtnmi => true
  | .nop => true
  | .halt => true
  | .ei => true
  | .di => true
  | .msa _ => true
  | .movReg _ _ => true
  | .incb _ => true
  | .incw => true

/-- The instruction is one of the machine's (R145 (f)). -/
def Instr.wellFormed (i : Instr) : Bool := i.view.wellFormed

/-- MMOV, BMOV, FCLR FLAG and FSET FLAG, which only the nX-4/300 core has (30_encoding.md R148). -/
def View.only300 : View → Bool
  | .mmov _ _ _ => true
  | .bmov _ _ _ => true
  | .fclr f => decide (f = .flag)
  | .fset f => decide (f = .flag)
  | .baseN _ _ _ => false
  | .alu _ _ => false
  | .movToA _ => false
  | .movFromA _ => false
  | .movAImm _ => false
  | .imm _ _ _ => false
  | .bit _ _ _ => false
  | .rom _ _ _ => false
  | .xmLoad _ _ => false
  | .xmStore _ _ => false
  | .push _ => false
  | .pop _ => false
  | .ljmp _ => false
  | .jmp _ => false
  | .sjmp _ => false
  | .jmpPcA => false
  | .branch _ _ => false
  | .lcal _ => false
  | .cal _ => false
  | .rt => false
  | .rti => false
  | .rtnmi => false
  | .nop => false
  | .halt => false
  | .ei => false
  | .di => false
  | .msa _ => false
  | .movReg _ _ => false
  | .incb _ => false
  | .incw => false

/-- Whether a core provides the instruction (00_scope.md R2; 30_encoding.md R148). -/
def Instr.providedOn (i : Instr) (core : CoreKind) : Bool := !i.view.only300 || decide (core = .nx300)

end Sys2Proof
end

