-- ==== Sys2Proof/Decode.lean ====
section
/-! DEFINITION. The decoder (30_encoding.md R153), total on any words and rejecting by name, and after it the
encoder, written from the same tables (30_encoding.md R122 to R145); the words and machine cycles of an
instruction (R120, R155). -/

namespace Sys2Proof

noncomputable section

/-! ## The fields of an encoding -/

/-- The operand form of the mode bits `b` (bank from CBR), `x` (pair XY) and `p` (post-increment)
(30_encoding.md R136). -/
def Ind.ofModeBits (b x p : Bool) : Ind :=
  match b, x, p with
  | true, false, false => .hl
  | true, true, false => .xy
  | false, false, false => .eHl
  | false, true, false => .eXy
  | true, false, true => .hlInc
  | true, true, true => .xyInc
  | false, false, true => .eHlInc
  | false, true, true => .eXyInc

/-- The form without post-increment of the mode bits `b` and `x` (30_encoding.md R127, R136). -/
def IndFixed.ofModeBits (b x : Bool) : IndFixed :=
  match b, x with
  | true, false => .hl
  | true, true => .xy
  | false, false => .eHl
  | false, true => .eXy

/-- The operation of the field `oooo` of F-SFR and F-CUR (30_encoding.md R139). -/
def AluOp.ofField (o : Nat) : AluOp :=
  match o with
  | 0 => .inc
  | 1 => .dec
  | 2 => .rol
  | 3 => .ror
  | 4 => .add
  | 5 => .adc
  | 6 => .adcd
  | 7 => .sub
  | 8 => .sbc
  | 9 => .sbcd
  | 10 => .cmp
  | 11 => .and
  | 12 => .or
  | 13 => .xor
  | 14 => .xch
  | _ => .mtst

/-- The base of the field `n2 n1 n0` of ADCJ and SBCJ (30_encoding.md R145 (f)). -/
def baseOfField (f : Nat) : Nat := if f = 0 then 16 else 2 * f

/-- ADCJ or SBCJ with its base, of the four-bit field `0 n2 n1 n0` or `1 n2 n1 n0` (30_encoding.md R145 (f)). -/
def baseView (o : ImmObj) (f : Nibble) : View :=
  .baseN (if f.getLsbD 3 then .sbcj else .adcj) o (baseOfField (f.extractLsb' 0 3).toNat)

/-- A branch of format F-REL: `cc`, `t` and the reassembled displacement (30_encoding.md R129). -/
def branchView (cc : Nat) (t : Bool) (d : Byte) : View :=
  match cc, t with
  | 0, false => .branch .bng d
  | 0, true => .sjmp d
  | 1, false => .branch .bc d
  | 1, true => .branch .bnc d
  | 2, false => .branch .bz d
  | 2, true => .branch .bnz d
  | _, false => .branch .ble d
  | _, true => .branch .bgt d

/-! ## The decoder -/

/-- What the first word says: the whole instruction, or an instruction that takes a second word
(30_encoding.md R120, R121). -/
inductive Opened where
  | whole (v : View)
  | more (k : Word → View)

/-- The fixed codes 0000H to 001FH (30_encoding.md R143). -/
def openFixed (n : Nat) : Option Opened :=
  match n with
  | 0x00 => some (.whole .nop)
  | 0x01 => some (.whole .halt)
  | 0x02 => some (.whole (.fclr .g))
  | 0x03 => some (.whole (.fclr .c))
  | 0x04 => some (.whole (.fclr .z))
  | 0x05 => some (.whole (.fclr .flag))
  | 0x06 => some (.whole (.fset .g))
  | 0x07 => some (.whole (.fset .c))
  | 0x08 => some (.whole (.fset .z))
  | 0x09 => some (.whole (.fset .flag))
  | 0x0B => some (.whole .rt)
  | 0x0C => some (.whole .rti)
  | 0x0D => some (.whole .rtnmi)
  | 0x0E => some (.whole .ei)
  | 0x0F => some (.whole .di)
  | 0x10 => some (.whole (.push .hl))
  | 0x11 => some (.whole (.push .xy))
  | 0x12 => some (.whole (.pop .hl))
  | 0x13 => some (.whole (.pop .xy))
  | 0x14 => some (.more .ljmp)
  | 0x15 => some (.more .lcal)
  | 0x16 => some (.more .msa)
  | 0x17 => some (.whole .jmpPcA)
  | 0x18 => some (.whole (.incb .hl))
  | 0x19 => some (.whole (.incb .xy))
  | 0x1A => some (.whole .incw)
  | _ => none

/-- Format F-IND: the group `ggg` and the field `ooo` (30_encoding.md R140; group 3 with `ooo` 4 and 5 takes a
second word, R125 (a)). -/
def openInd (ggg ooo : Nat) (m : Ind) : Option Opened :=
  match ggg, ooo with
  | 3, 0 => some (.whole (.movToA (.ind m)))
  | 3, 1 => some (.whole (.alu .xch (.ind m)))
  | 3, 2 => some (.whole (.rom .hb m .ra))
  | 3, 3 => some (.whole (.rom .lb m .ra))
  | 3, 4 => some (.more fun w => .rom .hb m (.adr w))
  | 3, 5 => some (.more fun w => .rom .lb m (.adr w))
  | 3, 6 => some (.whole (.xmLoad m .ra))
  | 3, 7 => some (.whole (.xmStore .ra m))
  | 4, 0 => some (.whole (.movFromA (.ind m)))
  | 4, 1 => some (.whole (.alu .and (.ind m)))
  | 4, 2 => some (.whole (.alu .or (.ind m)))
  | 4, 3 => some (.whole (.alu .xor (.ind m)))
  | 4, 4 => some (.whole (.alu .cmp (.ind m)))
  | 4, 5 => some (.whole (.alu .mtst (.ind m)))
  | 4, 6 => some (.whole (.alu .rol (.ind m)))
  | 4, 7 => some (.whole (.alu .ror (.ind m)))
  | 5, 0 => some (.whole (.alu .inc (.ind m)))
  | 5, 1 => some (.whole (.alu .dec (.ind m)))
  | 5, 2 => some (.whole (.alu .add (.ind m)))
  | 5, 3 => some (.whole (.alu .adc (.ind m)))
  | 5, 4 => some (.whole (.alu .adcd (.ind m)))
  | 5, 5 => some (.whole (.alu .sub (.ind m)))
  | 5, 6 => some (.whole (.alu .sbc (.ind m)))
  | 5, 7 => some (.whole (.alu .sbcd (.ind m)))
  | _, _ => none

/-- Format F-REGI without MOV A, #i4: the third and the second hex digit of the word (30_encoding.md R144). -/
def openReg (h d : Nat) (i : Nibble) : Option Opened :=
  match h, d with
  | 0, 2 => some (.whole (.movReg .ebr i))
  | 0, 3 => some (.whole (.movReg .cbr i))
  | 1, 0 => some (.whole (.movReg .y i))
  | 1, 1 => some (.whole (.movReg .x i))
  | 1, 2 => some (.whole (.movReg .l i))
  | 1, 3 => some (.whole (.movReg .h i))
  | 2, 0 => some (.whole (.movReg .ra0 i))
  | 2, 1 => some (.whole (.movReg .ra1 i))
  | 2, 2 => some (.whole (.movReg .ra2 i))
  | 2, 3 => some (.whole (.movReg .ra3 i))
  | _, _ => none

/-- The extended space with bits 7 and 6 equal to 00 (30_encoding.md R138, R153 step 3). -/
def openExt00 (w : Word) : Option Opened :=
  let h := (w.extractLsb' 8 3).toNat
  let d := (w.extractLsb' 4 4).toNat
  let m := Ind.ofModeBits (w.getLsbD 5) (w.getLsbD 4)
  match h with
  | 0 => if d < 2 then openFixed (w.extractLsb' 0 5).toNat else openReg 0 d (w.extractLsb' 0 4)
  | 1 => openReg 1 d (w.extractLsb' 0 4)
  | 2 => openReg 2 d (w.extractLsb' 0 4)
  | 3 => openInd 3 (w.extractLsb' 0 3).toNat (m (w.getLsbD 3))
  | 4 => openInd 4 (w.extractLsb' 0 3).toNat (m (w.getLsbD 3))
  | 5 => openInd 5 (w.extractLsb' 0 3).toNat (m (w.getLsbD 3))
  | 6 => some (.whole (baseView (.ind (m false)) (w.extractLsb' 0 4)))
  | _ => some (.whole (baseView (.ind (m true)) (w.extractLsb' 0 4)))

/-- Format F-INDI with `tt` equal to 01 or 10 (30_encoding.md R141). -/
def openIndImm (gg tt : Nat) (m : Ind) (i : Nibble) : Option Opened :=
  match gg, tt with
  | 0, 1 => some (.whole (.imm .xor (.ind m) i))
  | 0, 2 => some (.whole (.imm .add (.ind m) i))
  | 1, 1 => some (.whole (.imm .or (.ind m) i))
  | 1, 2 => some (.whole (.imm .sub (.ind m) i))
  | 2, 1 => some (.whole (.imm .and (.ind m) i))
  | 2, 2 => some (.whole (.imm .mtst (.ind m) i))
  | 3, 1 => some (.whole (.imm .mov (.ind m) i))
  | 3, 2 => some (.whole (.imm .cmp (.ind m) i))
  | _, _ => none

/-- The extended space with bits 7 and 6 equal to 11: F-MMOV, MOV A, #i4, MOVXB with xadr16, unassigned
(30_encoding.md R125 (b), R127, R144, R153 step 3). -/
def openExt11 (w : Word) : Option Opened :=
  if w.getLsbD 8 = false then
    some (.whole (.mmov (IndFixed.ofModeBits (w.getLsbD 5) (w.getLsbD 4)) (w.extractLsb' 0 4)
      (w.extractLsb' 9 2).toFin))
  else if w.extractLsb' 8 3 = 1#3 ∧ w.extractLsb' 4 2 = 0#2 then
    some (.whole (.movAImm (w.extractLsb' 0 4)))
  else if w.extractLsb' 8 3 = 3#3 ∧ w.extractLsb' 1 2 = 0#2 then
    let m := Ind.ofModeBits (w.getLsbD 5) (w.getLsbD 4) (w.getLsbD 3)
    if w.getLsbD 0 then some (.more fun a => .xmStore (.adr a) m)
    else some (.more fun a => .xmLoad m (.adr a))
  else none

/-- The extended space 0000H to 0FFFH (30_encoding.md R138, R153 steps 2 and 3). -/
def openExtended (w : Word) : Option Opened :=
  if w.getLsbD 11 then
    some (.whole (branchView (w.extractLsb' 9 2).toNat (w.getLsbD 7)
      (w.extractLsb' 8 1 ++ w.extractLsb' 0 7)))
  else
    match (w.extractLsb' 6 2).toNat with
    | 0 => openExt00 w
    | 3 => openExt11 w
    | tt => openIndImm (w.extractLsb' 9 2).toNat tt
        (Ind.ofModeBits (w.getLsbD 5) (w.getLsbD 4) (w.getLsbD 8)) (w.extractLsb' 0 4)

/-- Decoding of the first word by bits 15 to 12 (30_encoding.md R137, R153); `none` on an unassigned word (R147). -/
def openWord (w : Word) : Option Opened :=
  let n := w.extractLsb' 8 4
  let r := w.extractLsb' 0 8
  match (w.extractLsb' 12 4).toNat with
  | 0 => openExtended w
  | 1 => some (.whole (baseView (.cur r) n))
  | 2 => some (.whole (.alu (AluOp.ofField n.toNat) (.sfr r)))
  | 3 => some (.whole (.alu (AluOp.ofField n.toNat) (.cur r)))
  | 4 => some (.whole (.imm .mov (.cur r) n))
  | 5 => some (.whole (.imm .and (.cur r) n))
  | 6 => some (.whole (.imm .or (.cur r) n))
  | 7 => some (.whole (.imm .xor (.cur r) n))
  | 8 => some (.whole (.imm .add (.cur r) n))
  | 9 => some (.whole (.imm .sub (.cur r) n))
  | 10 => some (.whole (.imm .cmp (.cur r) n))
  | 11 => some (.whole (.imm .mtst (.cur r) n))
  | 12 => some (.whole (.movFromA (.direct (w.extractLsb' 0 12))))
  | 13 => some (.whole (.movToA (.direct (w.extractLsb' 0 12))))
  | 14 => some (.whole (.jmp (w.extractLsb' 0 12)))
  | _ => some (.whole (.cal (w.extractLsb' 0 12)))

/-! ## From an operation and an operand form to the instruction -/

/-- The constructor of operations on a location and A. -/
def Instr.ofAlu : AluOp → AluObj → Instr
  | .inc, .sfr r => .incSfr r
  | .inc, .cur r => .incCur r
  | .inc, .ind .hl => .incHl
  | .inc, .ind .xy => .incXy
  | .inc, .ind .eHl => .incEHl
  | .inc, .ind .eXy => .incEXy
  | .inc, .ind .hlInc => .incHlInc
  | .inc, .ind .xyInc => .incXyInc
  | .inc, .ind .eHlInc => .incEHlInc
  | .inc, .ind .eXyInc => .incEXyInc
  | .dec, .sfr r => .decSfr r
  | .dec, .cur r => .decCur r
  | .dec, .ind .hl => .decHl
  | .dec, .ind .xy => .decXy
  | .dec, .ind .eHl => .decEHl
  | .dec, .ind .eXy => .decEXy
  | .dec, .ind .hlInc => .decHlInc
  | .dec, .ind .xyInc => .decXyInc
  | .dec, .ind .eHlInc => .decEHlInc
  | .dec, .ind .eXyInc => .decEXyInc
  | .rol, .sfr r => .rolSfr r
  | .rol, .cur r => .rolCur r
  | .rol, .ind .hl => .rolHl
  | .rol, .ind .xy => .rolXy
  | .rol, .ind .eHl => .rolEHl
  | .rol, .ind .eXy => .rolEXy
  | .rol, .ind .hlInc => .rolHlInc
  | .rol, .ind .xyInc => .rolXyInc
  | .rol, .ind .eHlInc => .rolEHlInc
  | .rol, .ind .eXyInc => .rolEXyInc
  | .ror, .sfr r => .rorSfr r
  | .ror, .cur r => .rorCur r
  | .ror, .ind .hl => .rorHl
  | .ror, .ind .xy => .rorXy
  | .ror, .ind .eHl => .rorEHl
  | .ror, .ind .eXy => .rorEXy
  | .ror, .ind .hlInc => .rorHlInc
  | .ror, .ind .xyInc => .rorXyInc
  | .ror, .ind .eHlInc => .rorEHlInc
  | .ror, .ind .eXyInc => .rorEXyInc
  | .add, .sfr r => .addSfrA r
  | .add, .cur r => .addCurA r
  | .add, .ind .hl => .addHlA
  | .add, .ind .xy => .addXyA
  | .add, .ind .eHl => .addEHlA
  | .add, .ind .eXy => .addEXyA
  | .add, .ind .hlInc => .addHlIncA
  | .add, .ind .xyInc => .addXyIncA
  | .add, .ind .eHlInc => .addEHlIncA
  | .add, .ind .eXyInc => .addEXyIncA
  | .adc, .sfr r => .adcSfrA r
  | .adc, .cur r => .adcCurA r
  | .adc, .ind .hl => .adcHlA
  | .adc, .ind .xy => .adcXyA
  | .adc, .ind .eHl => .adcEHlA
  | .adc, .ind .eXy => .adcEXyA
  | .adc, .ind .hlInc => .adcHlIncA
  | .adc, .ind .xyInc => .adcXyIncA
  | .adc, .ind .eHlInc => .adcEHlIncA
  | .adc, .ind .eXyInc => .adcEXyIncA
  | .adcd, .sfr r => .adcdSfrA r
  | .adcd, .cur r => .adcdCurA r
  | .adcd, .ind .hl => .adcdHlA
  | .adcd, .ind .xy => .adcdXyA
  | .adcd, .ind .eHl => .adcdEHlA
  | .adcd, .ind .eXy => .adcdEXyA
  | .adcd, .ind .hlInc => .adcdHlIncA
  | .adcd, .ind .xyInc => .adcdXyIncA
  | .adcd, .ind .eHlInc => .adcdEHlIncA
  | .adcd, .ind .eXyInc => .adcdEXyIncA
  | .sub, .sfr r => .subSfrA r
  | .sub, .cur r => .subCurA r
  | .sub, .ind .hl => .subHlA
  | .sub, .ind .xy => .subXyA
  | .sub, .ind .eHl => .subEHlA
  | .sub, .ind .eXy => .subEXyA
  | .sub, .ind .hlInc => .subHlIncA
  | .sub, .ind .xyInc => .subXyIncA
  | .sub, .ind .eHlInc => .subEHlIncA
  | .sub, .ind .eXyInc => .subEXyIncA
  | .sbc, .sfr r => .sbcSfrA r
  | .sbc, .cur r => .sbcCurA r
  | .sbc, .ind .hl => .sbcHlA
  | .sbc, .ind .xy => .sbcXyA
  | .sbc, .ind .eHl => .sbcEHlA
  | .sbc, .ind .eXy => .sbcEXyA
  | .sbc, .ind .hlInc => .sbcHlIncA
  | .sbc, .ind .xyInc => .sbcXyIncA
  | .sbc, .ind .eHlInc => .sbcEHlIncA
  | .sbc, .ind .eXyInc => .sbcEXyIncA
  | .sbcd, .sfr r => .sbcdSfrA r
  | .sbcd, .cur r => .sbcdCurA r
  | .sbcd, .ind .hl => .sbcdHlA
  | .sbcd, .ind .xy => .sbcdXyA
  | .sbcd, .ind .eHl => .sbcdEHlA
  | .sbcd, .ind .eXy => .sbcdEXyA
  | .sbcd, .ind .hlInc => .sbcdHlIncA
  | .sbcd, .ind .xyInc => .sbcdXyIncA
  | .sbcd, .ind .eHlInc => .sbcdEHlIncA
  | .sbcd, .ind .eXyInc => .sbcdEXyIncA
  | .cmp, .sfr r => .cmpSfrA r
  | .cmp, .cur r => .cmpCurA r
  | .cmp, .ind .hl => .cmpHlA
  | .cmp, .ind .xy => .cmpXyA
  | .cmp, .ind .eHl => .cmpEHlA
  | .cmp, .ind .eXy => .cmpEXyA
  | .cmp, .ind .hlInc => .cmpHlIncA
  | .cmp, .ind .xyInc => .cmpXyIncA
  | .cmp, .ind .eHlInc => .cmpEHlIncA
  | .cmp, .ind .eXyInc => .cmpEXyIncA
  | .and, .sfr r => .andSfrA r
  | .and, .cur r => .andCurA r
  | .and, .ind .hl => .andHlA
  | .and, .ind .xy => .andXyA
  | .and, .ind .eHl => .andEHlA
  | .and, .ind .eXy => .andEXyA
  | .and, .ind .hlInc => .andHlIncA
  | .and, .ind .xyInc => .andXyIncA
  | .and, .ind .eHlInc => .andEHlIncA
  | .and, .ind .eXyInc => .andEXyIncA
  | .or, .sfr r => .orSfrA r
  | .or, .cur r => .orCurA r
  | .or, .ind .hl => .orHlA
  | .or, .ind .xy => .orXyA
  | .or, .ind .eHl => .orEHlA
  | .or, .ind .eXy => .orEXyA
  | .or, .ind .hlInc => .orHlIncA
  | .or, .ind .xyInc => .orXyIncA
  | .or, .ind .eHlInc => .orEHlIncA
  | .or, .ind .eXyInc => .orEXyIncA
  | .xor, .sfr r => .xorSfrA r
  | .xor, .cur r => .xorCurA r
  | .xor, .ind .hl => .xorHlA
  | .xor, .ind .xy => .xorXyA
  | .xor, .ind .eHl => .xorEHlA
  | .xor, .ind .eXy => .xorEXyA
  | .xor, .ind .hlInc => .xorHlIncA
  | .xor, .ind .xyInc => .xorXyIncA
  | .xor, .ind .eHlInc => .xorEHlIncA
  | .xor, .ind .eXyInc => .xorEXyIncA
  | .xch, .sfr r => .xchASfr r
  | .xch, .cur r => .xchACur r
  | .xch, .ind .hl => .xchAHl
  | .xch, .ind .xy => .xchAXy
  | .xch, .ind .eHl => .xchAEHl
  | .xch, .ind .eXy => .xchAEXy
  | .xch, .ind .hlInc => .xchAHlInc
  | .xch, .ind .xyInc => .xchAXyInc
  | .xch, .ind .eHlInc => .xchAEHlInc
  | .xch, .ind .eXyInc => .xchAEXyInc
  | .mtst, .sfr r => .mtstSfrA r
  | .mtst, .cur r => .mtstCurA r
  | .mtst, .ind .hl => .mtstHlA
  | .mtst, .ind .xy => .mtstXyA
  | .mtst, .ind .eHl => .mtstEHlA
  | .mtst, .ind .eXy => .mtstEXyA
  | .mtst, .ind .hlInc => .mtstHlIncA
  | .mtst, .ind .xyInc => .mtstXyIncA
  | .mtst, .ind .eHlInc => .mtstEHlIncA
  | .mtst, .ind .eXyInc => .mtstEXyIncA

/-- The constructor of MOV A, obj. -/
def Instr.ofMovToA : MovObj → Instr
  | .direct r => .movADirect r
  | .ind .hl => .movAHl
  | .ind .xy => .movAXy
  | .ind .eHl => .movAEHl
  | .ind .eXy => .movAEXy
  | .ind .hlInc => .movAHlInc
  | .ind .xyInc => .movAXyInc
  | .ind .eHlInc => .movAEHlInc
  | .ind .eXyInc => .movAEXyInc

/-- The constructor of MOV obj, A. -/
def Instr.ofMovFromA : MovObj → Instr
  | .direct r => .movDirectA r
  | .ind .hl => .movHlA
  | .ind .xy => .movXyA
  | .ind .eHl => .movEHlA
  | .ind .eXy => .movEXyA
  | .ind .hlInc => .movHlIncA
  | .ind .xyInc => .movXyIncA
  | .ind .eHlInc => .movEHlIncA
  | .ind .eXyInc => .movEXyIncA

/-- The constructor of operations with an immediate or a mask. -/
def Instr.ofImm : ImmOp → ImmObj → Nibble → Instr
  | .mov, .cur r, i => .movCurI r i
  | .mov, .ind .hl, i => .movHlI i
  | .mov, .ind .xy, i => .movXyI i
  | .mov, .ind .eHl, i => .movEHlI i
  | .mov, .ind .eXy, i => .movEXyI i
  | .mov, .ind .hlInc, i => .movHlIncI i
  | .mov, .ind .xyInc, i => .movXyIncI i
  | .mov, .ind .eHlInc, i => .movEHlIncI i
  | .mov, .ind .eXyInc, i => .movEXyIncI i
  | .add, .cur r, i => .addCurI r i
  | .add, .ind .hl, i => .addHlI i
  | .add, .ind .xy, i => .addXyI i
  | .add, .ind .eHl, i => .addEHlI i
  | .add, .ind .eXy, i => .addEXyI i
  | .add, .ind .hlInc, i => .addHlIncI i
  | .add, .ind .xyInc, i => .addXyIncI i
  | .add, .ind .eHlInc, i => .addEHlIncI i
  | .add, .ind .eXyInc, i => .addEXyIncI i
  | .sub, .cur r, i => .subCurI r i
  | .sub, .ind .hl, i => .subHlI i
  | .sub, .ind .xy, i => .subXyI i
  | .sub, .ind .eHl, i => .subEHlI i
  | .sub, .ind .eXy, i => .subEXyI i
  | .sub, .ind .hlInc, i => .subHlIncI i
  | .sub, .ind .xyInc, i => .subXyIncI i
  | .sub, .ind .eHlInc, i => .subEHlIncI i
  | .sub, .ind .eXyInc, i => .subEXyIncI i
  | .cmp, .cur r, i => .cmpCurI r i
  | .cmp, .ind .hl, i => .cmpHlI i
  | .cmp, .ind .xy, i => .cmpXyI i
  | .cmp, .ind .eHl, i => .cmpEHlI i
  | .cmp, .ind .eXy, i => .cmpEXyI i
  | .cmp, .ind .hlInc, i => .cmpHlIncI i
  | .cmp, .ind .xyInc, i => .cmpXyIncI i
  | .cmp, .ind .eHlInc, i => .cmpEHlIncI i
  | .cmp, .ind .eXyInc, i => .cmpEXyIncI i
  | .and, .cur r, i => .andCurI r i
  | .and, .ind .hl, i => .andHlI i
  | .and, .ind .xy, i => .andXyI i
  | .and, .ind .eHl, i => .andEHlI i
  | .and, .ind .eXy, i => .andEXyI i
  | .and, .ind .hlInc, i => .andHlIncI i
  | .and, .ind .xyInc, i => .andXyIncI i
  | .and, .ind .eHlInc, i => .andEHlIncI i
  | .and, .ind .eXyInc, i => .andEXyIncI i
  | .or, .cur r, i => .orCurI r i
  | .or, .ind .hl, i => .orHlI i
  | .or, .ind .xy, i => .orXyI i
  | .or, .ind .eHl, i => .orEHlI i
  | .or, .ind .eXy, i => .orEXyI i
  | .or, .ind .hlInc, i => .orHlIncI i
  | .or, .ind .xyInc, i => .orXyIncI i
  | .or, .ind .eHlInc, i => .orEHlIncI i
  | .or, .ind .eXyInc, i => .orEXyIncI i
  | .xor, .cur r, i => .xorCurI r i
  | .xor, .ind .hl, i => .xorHlI i
  | .xor, .ind .xy, i => .xorXyI i
  | .xor, .ind .eHl, i => .xorEHlI i
  | .xor, .ind .eXy, i => .xorEXyI i
  | .xor, .ind .hlInc, i => .xorHlIncI i
  | .xor, .ind .xyInc, i => .xorXyIncI i
  | .xor, .ind .eHlInc, i => .xorEHlIncI i
  | .xor, .ind .eXyInc, i => .xorEXyIncI i
  | .mtst, .cur r, m => .mtstCurM r m
  | .mtst, .ind .hl, m => .mtstHlM m
  | .mtst, .ind .xy, m => .mtstXyM m
  | .mtst, .ind .eHl, m => .mtstEHlM m
  | .mtst, .ind .eXy, m => .mtstEXyM m
  | .mtst, .ind .hlInc, m => .mtstHlIncM m
  | .mtst, .ind .xyInc, m => .mtstXyIncM m
  | .mtst, .ind .eHlInc, m => .mtstEHlIncM m
  | .mtst, .ind .eXyInc, m => .mtstEXyIncM m
  | .mclr, .cur r, m => .mclrCurM r m
  | .mclr, .ind .hl, m => .mclrHlM m
  | .mclr, .ind .xy, m => .mclrXyM m
  | .mclr, .ind .eHl, m => .mclrEHlM m
  | .mclr, .ind .eXy, m => .mclrEXyM m
  | .mclr, .ind .hlInc, m => .mclrHlIncM m
  | .mclr, .ind .xyInc, m => .mclrXyIncM m
  | .mclr, .ind .eHlInc, m => .mclrEHlIncM m
  | .mclr, .ind .eXyInc, m => .mclrEXyIncM m
  | .mset, .cur r, m => .msetCurM r m
  | .mset, .ind .hl, m => .msetHlM m
  | .mset, .ind .xy, m => .msetXyM m
  | .mset, .ind .eHl, m => .msetEHlM m
  | .mset, .ind .eXy, m => .msetEXyM m
  | .mset, .ind .hlInc, m => .msetHlIncM m
  | .mset, .ind .xyInc, m => .msetXyIncM m
  | .mset, .ind .eHlInc, m => .msetEHlIncM m
  | .mset, .ind .eXyInc, m => .msetEXyIncM m
  | .mnot, .cur r, m => .mnotCurM r m
  | .mnot, .ind .hl, m => .mnotHlM m
  | .mnot, .ind .xy, m => .mnotXyM m
  | .mnot, .ind .eHl, m => .mnotEHlM m
  | .mnot, .ind .eXy, m => .mnotEXyM m
  | .mnot, .ind .hlInc, m => .mnotHlIncM m
  | .mnot, .ind .xyInc, m => .mnotXyIncM m
  | .mnot, .ind .eHlInc, m => .mnotEHlIncM m
  | .mnot, .ind .eXyInc, m => .mnotEXyIncM m

/-- The constructor of operations on one bit. -/
def Instr.ofBit : BitOp → ImmObj → Fin 4 → Instr
  | .btst, .cur r, n => .btstCurN r n
  | .btst, .ind .hl, n => .btstHlN n
  | .btst, .ind .xy, n => .btstXyN n
  | .btst, .ind .eHl, n => .btstEHlN n
  | .btst, .ind .eXy, n => .btstEXyN n
  | .btst, .ind .hlInc, n => .btstHlIncN n
  | .btst, .ind .xyInc, n => .btstXyIncN n
  | .btst, .ind .eHlInc, n => .btstEHlIncN n
  | .btst, .ind .eXyInc, n => .btstEXyIncN n
  | .bclr, .cur r, n => .bclrCurN r n
  | .bclr, .ind .hl, n => .bclrHlN n
  | .bclr, .ind .xy, n => .bclrXyN n
  | .bclr, .ind .eHl, n => .bclrEHlN n
  | .bclr, .ind .eXy, n => .bclrEXyN n
  | .bclr, .ind .hlInc, n => .bclrHlIncN n
  | .bclr, .ind .xyInc, n => .bclrXyIncN n
  | .bclr, .ind .eHlInc, n => .bclrEHlIncN n
  | .bclr, .ind .eXyInc, n => .bclrEXyIncN n
  | .bset, .cur r, n => .bsetCurN r n
  | .bset, .ind .hl, n => .bsetHlN n
  | .bset, .ind .xy, n => .bsetXyN n
  | .bset, .ind .eHl, n => .bsetEHlN n
  | .bset, .ind .eXy, n => .bsetEXyN n
  | .bset, .ind .hlInc, n => .bsetHlIncN n
  | .bset, .ind .xyInc, n => .bsetXyIncN n
  | .bset, .ind .eHlInc, n => .bsetEHlIncN n
  | .bset, .ind .eXyInc, n => .bsetEXyIncN n
  | .bnot, .cur r, n => .bnotCurN r n
  | .bnot, .ind .hl, n => .bnotHlN n
  | .bnot, .ind .xy, n => .bnotXyN n
  | .bnot, .ind .eHl, n => .bnotEHlN n
  | .bnot, .ind .eXy, n => .bnotEXyN n
  | .bnot, .ind .hlInc, n => .bnotHlIncN n
  | .bnot, .ind .xyInc, n => .bnotXyIncN n
  | .bnot, .ind .eHlInc, n => .bnotEHlIncN n
  | .bnot, .ind .eXyInc, n => .bnotEXyIncN n

/-- The constructor of base-n operations. -/
def Instr.ofBase : BaseOp → ImmObj → Nat → Instr
  | .adcj, .cur r, n => .adcjCurN r n
  | .sbcj, .cur r, n => .sbcjCurN r n
  | .adcj, .ind .hl, n => .adcjHlN n
  | .sbcj, .ind .hl, n => .sbcjHlN n
  | .adcj, .ind .xy, n => .adcjXyN n
  | .sbcj, .ind .xy, n => .sbcjXyN n
  | .adcj, .ind .eHl, n => .adcjEHlN n
  | .sbcj, .ind .eHl, n => .sbcjEHlN n
  | .adcj, .ind .eXy, n => .adcjEXyN n
  | .sbcj, .ind .eXy, n => .sbcjEXyN n
  | .adcj, .ind .hlInc, n => .adcjHlIncN n
  | .sbcj, .ind .hlInc, n => .sbcjHlIncN n
  | .adcj, .ind .xyInc, n => .adcjXyIncN n
  | .sbcj, .ind .xyInc, n => .sbcjXyIncN n
  | .adcj, .ind .eHlInc, n => .adcjEHlIncN n
  | .sbcj, .ind .eHlInc, n => .sbcjEHlIncN n
  | .adcj, .ind .eXyInc, n => .adcjEXyIncN n
  | .sbcj, .ind .eXyInc, n => .sbcjEXyIncN n

/-- The constructor of MMOV. -/
def Instr.ofMmov : IndFixed → Nibble → Fin 4 → Instr
  | .hl, m, n => .mmovHl m n
  | .xy, m, n => .mmovXy m n
  | .eHl, m, n => .mmovEHl m n
  | .eXy, m, n => .mmovEXy m n

/-- The constructor of BMOV. -/
def Instr.ofBmov : IndFixed → Fin 4 → Fin 4 → Instr
  | .hl, k, n => .bmovHl k n
  | .xy, k, n => .bmovXy k n
  | .eHl, k, n => .bmovEHl k n
  | .eXy, k, n => .bmovEXy k n

/-- The constructor of MOVHB and MOVLB. -/
def Instr.ofRom : Half → Ind → FarAddr → Instr
  | .hb, .hl, .ra => .movhbHlRa
  | .hb, .xy, .ra => .movhbXyRa
  | .hb, .eHl, .ra => .movhbEHlRa
  | .hb, .eXy, .ra => .movhbEXyRa
  | .hb, .hlInc, .ra => .movhbHlIncRa
  | .hb, .xyInc, .ra => .movhbXyIncRa
  | .hb, .eHlInc, .ra => .movhbEHlIncRa
  | .hb, .eXyInc, .ra => .movhbEXyIncRa
  | .hb, .hl, .adr w => .movhbHlCadr w
  | .hb, .xy, .adr w => .movhbXyCadr w
  | .hb, .eHl, .adr w => .movhbEHlCadr w
  | .hb, .eXy, .adr w => .movhbEXyCadr w
  | .hb, .hlInc, .adr w => .movhbHlIncCadr w
  | .hb, .xyInc, .adr w => .movhbXyIncCadr w
  | .hb, .eHlInc, .adr w => .movhbEHlIncCadr w
  | .hb, .eXyInc, .adr w => .movhbEXyIncCadr w
  | .lb, .hl, .ra => .movlbHlRa
  | .lb, .xy, .ra => .movlbXyRa
  | .lb, .eHl, .ra => .movlbEHlRa
  | .lb, .eXy, .ra => .movlbEXyRa
  | .lb, .hlInc, .ra => .movlbHlIncRa
  | .lb, .xyInc, .ra => .movlbXyIncRa
  | .lb, .eHlInc, .ra => .movlbEHlIncRa
  | .lb, .eXyInc, .ra => .movlbEXyIncRa
  | .lb, .hl, .adr w => .movlbHlCadr w
  | .lb, .xy, .adr w => .movlbXyCadr w
  | .lb, .eHl, .adr w => .movlbEHlCadr w
  | .lb, .eXy, .adr w => .movlbEXyCadr w
  | .lb, .hlInc, .adr w => .movlbHlIncCadr w
  | .lb, .xyInc, .adr w => .movlbXyIncCadr w
  | .lb, .eHlInc, .adr w => .movlbEHlIncCadr w
  | .lb, .eXyInc, .adr w => .movlbEXyIncCadr w

/-- The constructor of MOVXB to data memory. -/
def Instr.ofXmLoad : Ind → FarAddr → Instr
  | .hl, .ra => .movxbHlRa
  | .xy, .ra => .movxbXyRa
  | .eHl, .ra => .movxbEHlRa
  | .eXy, .ra => .movxbEXyRa
  | .hlInc, .ra => .movxbHlIncRa
  | .xyInc, .ra => .movxbXyIncRa
  | .eHlInc, .ra => .movxbEHlIncRa
  | .eXyInc, .ra => .movxbEXyIncRa
  | .hl, .adr w => .movxbHlXadr w
  | .xy, .adr w => .movxbXyXadr w
  | .eHl, .adr w => .movxbEHlXadr w
  | .eXy, .adr w => .movxbEXyXadr w
  | .hlInc, .adr w => .movxbHlIncXadr w
  | .xyInc, .adr w => .movxbXyIncXadr w
  | .eHlInc, .adr w => .movxbEHlIncXadr w
  | .eXyInc, .adr w => .movxbEXyIncXadr w

/-- The constructor of MOVXB to external memory. -/
def Instr.ofXmStore : FarAddr → Ind → Instr
  | .ra, .hl => .movxbRaHl
  | .ra, .xy => .movxbRaXy
  | .ra, .eHl => .movxbRaEHl
  | .ra, .eXy => .movxbRaEXy
  | .ra, .hlInc => .movxbRaHlInc
  | .ra, .xyInc => .movxbRaXyInc
  | .ra, .eHlInc => .movxbRaEHlInc
  | .ra, .eXyInc => .movxbRaEXyInc
  | .adr w, .hl => .movxbXadrHl w
  | .adr w, .xy => .movxbXadrXy w
  | .adr w, .eHl => .movxbXadrEHl w
  | .adr w, .eXy => .movxbXadrEXy w
  | .adr w, .hlInc => .movxbXadrHlInc w
  | .adr w, .xyInc => .movxbXadrXyInc w
  | .adr w, .eHlInc => .movxbXadrEHlInc w
  | .adr w, .eXyInc => .movxbXadrEXyInc w

/-- The constructor of the conditional branches. -/
def Instr.ofBranch : Cond → Byte → Instr
  | .bng, d => .bng d
  | .bc, d => .bc d
  | .blt, d => .blt d
  | .bnc, d => .bnc d
  | .bge, d => .bge d
  | .bz, d => .bz d
  | .beq, d => .beq d
  | .bnz, d => .bnz d
  | .bne, d => .bne d
  | .ble, d => .ble d
  | .bgt, d => .bgt d

/-- The constructor of MOV reg, #i4. -/
def Instr.ofMovReg : Reg → Nibble → Instr
  | .ebr, i => .movEbrI i
  | .cbr, i => .movCbrI i
  | .y, i => .movYRegI i
  | .x, i => .movXRegI i
  | .l, i => .movLRegI i
  | .h, i => .movHRegI i
  | .ra0, i => .movRa0I i
  | .ra1, i => .movRa1I i
  | .ra2, i => .movRa2I i
  | .ra3, i => .movRa3I i

/-- The instruction an operation and an operand form name: the inverse of `Instr.view`. -/
def View.toInstr : View → Instr
  | .alu p q => Instr.ofAlu p q
  | .movToA p => Instr.ofMovToA p
  | .movFromA p => Instr.ofMovFromA p
  | .movAImm i => .movAI i
  | .imm p q r => Instr.ofImm p q r
  | .bit p q r => Instr.ofBit p q r
  | .baseN p q r => Instr.ofBase p q r
  | .mmov p q r => Instr.ofMmov p q r
  | .bmov p q r => Instr.ofBmov p q r
  | .rom p q r => Instr.ofRom p q r
  | .xmLoad p q => Instr.ofXmLoad p q
  | .xmStore p q => Instr.ofXmStore p q
  | .nop => .nop
  | .halt => .halt
  | .fclr .g => .fclrG
  | .fclr .c => .fclrC
  | .fclr .z => .fclrZ
  | .fclr .flag => .fclrFlag
  | .fset .g => .fsetG
  | .fset .c => .fsetC
  | .fset .z => .fsetZ
  | .fset .flag => .fsetFlag
  | .rt => .rt
  | .rti => .rti
  | .rtnmi => .rtnmi
  | .ei => .ei
  | .di => .di
  | .push .hl => .pushHl
  | .push .xy => .pushXy
  | .pop .hl => .popHl
  | .pop .xy => .popXy
  | .ljmp w => .ljmp w
  | .lcal w => .lcal w
  | .msa w => .msa w
  | .jmpPcA => .jmpPcA
  | .incb .hl => .incbHl
  | .incb .xy => .incbXy
  | .incw => .incwRa
  | .movReg p q => Instr.ofMovReg p q
  | .jmp a => .jmp a
  | .cal a => .cal a
  | .branch p q => Instr.ofBranch p q
  | .sjmp d => .sjmp d

/-- What decoding answers: an instruction and the words after it, or the reason there is none. -/
inductive Decoded where
  /-- An instruction, and the words that follow it. -/
  | ok (i : Instr) (rest : List Word)
  /-- The words end before the instruction does. -/
  | truncated
  /-- The first word is assigned to no instruction (30_encoding.md R147). -/
  | undefinedOpcode (w : Word)
  deriving DecidableEq, Repr

/-- Read one instruction from a list of words (30_encoding.md R153). -/
def decode : List Word → Decoded
  | [] => .truncated
  | w :: rest =>
    match openWord w with
    | none => .undefinedOpcode w
    | some (.whole v) => .ok v.toInstr rest
    | some (.more k) =>
      match rest with
      | [] => .truncated
      | a :: rest => .ok (k a).toInstr rest

/-- The instruction of a decoding, if there is one. -/
def Decoded.instr? : Decoded → Option Instr
  | .ok i _ => some i
  | .truncated => none
  | .undefinedOpcode _ => none

/-- What the decoder reads from the instruction whose bits are `w`, bit 0 the least significant bit of the first
word and bit 16 that of the second; only the low `nbits` bits of `w` count. -/
def decodeTableWord (nbits w : Nat) : Option Instr :=
  let u := w % 2 ^ nbits
  (decode [BitVec.ofNat 16 u, BitVec.ofNat 16 (u / 2 ^ 16)]).instr?

/-! ## The encoder -/

/-- Mode bit `b` of an operand form: the bank is CBR (30_encoding.md R136). -/
def Ind.bitB : Ind → Bool
  | .hl => true
  | .xy => true
  | .eHl => false
  | .eXy => false
  | .hlInc => true
  | .xyInc => true
  | .eHlInc => false
  | .eXyInc => false

/-- Mode bit `x` of an operand form: the pair is XY (30_encoding.md R136). -/
def Ind.bitX : Ind → Bool
  | .hl => false
  | .xy => true
  | .eHl => false
  | .eXy => true
  | .hlInc => false
  | .xyInc => true
  | .eHlInc => false
  | .eXyInc => true

/-- Mode bit `p` of an operand form: post-increment (30_encoding.md R136). -/
def Ind.bitP : Ind → Bool
  | .hl => false
  | .xy => false
  | .eHl => false
  | .eXy => false
  | .hlInc => true
  | .xyInc => true
  | .eHlInc => true
  | .eXyInc => true

/-- The same form among the eight. -/
def IndFixed.toInd : IndFixed → Ind
  | .hl => .hl
  | .xy => .xy
  | .eHl => .eHl
  | .eXy => .eXy

/-- One bit as a field. -/
def bitField (b : Bool) : BitVec 1 := BitVec.ofBool b

/-- A word of format F-IND (30_encoding.md R124, R140). -/
def wordInd (ggg : BitVec 3) (m : Ind) (ooo : BitVec 3) : Word :=
  0#5 ++ ggg ++ 0#2 ++ bitField m.bitB ++ bitField m.bitX ++ bitField m.bitP ++ ooo

/-- A word of format F-INDI (30_encoding.md R131, R141). -/
def wordIndImm (gg tt : BitVec 2) (m : Ind) (f : Nibble) : Word :=
  0#5 ++ gg ++ bitField m.bitP ++ tt ++ bitField m.bitB ++ bitField m.bitX ++ f

/-- A word of format F-SFR, F-CUR or F-CURI: two digits and an offset (30_encoding.md R123, R130). -/
def wordOffset (t o : Nibble) (r : Byte) : Word := t ++ o ++ r

/-- A word of format F-DIR or F-A12: a digit and twelve bits (30_encoding.md R126, R128). -/
def word12 (t : Nibble) (a : BitVec 12) : Word := t ++ a

/-- A word of format F-REL (30_encoding.md R129). -/
def wordRel (cc : BitVec 2) (t : Bool) (d : Byte) : Word :=
  1#5 ++ cc ++ bitField (d.getLsbD 7) ++ bitField t ++ d.extractLsb' 0 7

/-- A word of format F-MMOV (30_encoding.md R127). -/
def wordMmov (n : Fin 4) (m : IndFixed) (f : Nibble) : Word :=
  0#5 ++ (BitVec.ofFin n : BitVec 2) ++ 0#1 ++ 3#2 ++ bitField m.toInd.bitB ++ bitField m.toInd.bitX ++ f

/-- The first word of MOVXB with xadr16 (30_encoding.md R125 (b)). -/
def wordXm (m : Ind) (d : Bool) : Word :=
  3#8 ++ 3#2 ++ bitField m.bitB ++ bitField m.bitX ++ bitField m.bitP ++ 0#2 ++ bitField d

/-- The field `oooo` of an operation (30_encoding.md R139). -/
def AluOp.field : AluOp → Nibble
  | .inc => 0
  | .dec => 1
  | .rol => 2
  | .ror => 3
  | .add => 4
  | .adc => 5
  | .adcd => 6
  | .sub => 7
  | .sbc => 8
  | .sbcd => 9
  | .cmp => 10
  | .and => 11
  | .or => 12
  | .xor => 13
  | .xch => 14
  | .mtst => 15

/-- The indirect form of an operation on a location and A (30_encoding.md R140). -/
def AluOp.wordInd : AluOp → Ind → Word
  | .xch, m => Sys2Proof.wordInd 3 m 1
  | .and, m => Sys2Proof.wordInd 4 m 1
  | .or, m => Sys2Proof.wordInd 4 m 2
  | .xor, m => Sys2Proof.wordInd 4 m 3
  | .cmp, m => Sys2Proof.wordInd 4 m 4
  | .mtst, m => Sys2Proof.wordInd 4 m 5
  | .rol, m => Sys2Proof.wordInd 4 m 6
  | .ror, m => Sys2Proof.wordInd 4 m 7
  | .inc, m => Sys2Proof.wordInd 5 m 0
  | .dec, m => Sys2Proof.wordInd 5 m 1
  | .add, m => Sys2Proof.wordInd 5 m 2
  | .adc, m => Sys2Proof.wordInd 5 m 3
  | .adcd, m => Sys2Proof.wordInd 5 m 4
  | .sub, m => Sys2Proof.wordInd 5 m 5
  | .sbc, m => Sys2Proof.wordInd 5 m 6
  | .sbcd, m => Sys2Proof.wordInd 5 m 7

/-- The word of an operation with an immediate; MCLR, MSET and MNOT are spellings of AND, OR and XOR
(30_encoding.md R141, R142, R146). -/
def ImmOp.word : ImmOp → ImmObj → Nibble → Word
  | .mov, .cur r, i => wordOffset 4 i r
  | .mov, .ind m, i => wordIndImm 3 1 m i
  | .add, .cur r, i => wordOffset 8 i r
  | .add, .ind m, i => wordIndImm 0 2 m i
  | .sub, .cur r, i => wordOffset 9 i r
  | .sub, .ind m, i => wordIndImm 1 2 m i
  | .cmp, .cur r, i => wordOffset 10 i r
  | .cmp, .ind m, i => wordIndImm 3 2 m i
  | .and, .cur r, i => wordOffset 5 i r
  | .and, .ind m, i => wordIndImm 2 1 m i
  | .or, .cur r, i => wordOffset 6 i r
  | .or, .ind m, i => wordIndImm 1 1 m i
  | .xor, .cur r, i => wordOffset 7 i r
  | .xor, .ind m, i => wordIndImm 0 1 m i
  | .mtst, .cur r, i => wordOffset 11 i r
  | .mtst, .ind m, i => wordIndImm 2 2 m i
  | .mclr, .cur r, i => wordOffset 5 i r
  | .mclr, .ind m, i => wordIndImm 2 1 m i
  | .mset, .cur r, i => wordOffset 6 i r
  | .mset, .ind m, i => wordIndImm 1 1 m i
  | .mnot, .cur r, i => wordOffset 7 i r
  | .mnot, .ind m, i => wordIndImm 0 1 m i

/-- The one-hot selector of a bit number (30_encoding.md R145 (b)). -/
def oneHot (n : Fin 4) : Nibble := 1#4 <<< n.val

/-- The selector BCLR carries: one-hot, inverted (30_encoding.md R145 (c)). -/
def oneCold (n : Fin 4) : Nibble := ~~~ oneHot n

/-- The word of an operation on one bit (30_encoding.md R145, R146). -/
def BitOp.word : BitOp → ImmObj → Fin 4 → Word
  | .btst, o, n => ImmOp.mtst.word o (oneHot n)
  | .bclr, o, n => ImmOp.and.word o (oneCold n)
  | .bset, o, n => ImmOp.or.word o (oneHot n)
  | .bnot, o, n => ImmOp.xor.word o (oneHot n)

/-- The four-bit field of ADCJ and SBCJ (30_encoding.md R145 (f)). -/
def baseField (op : BaseOp) (n : Nat) : Nibble := bitField (decide (op = .sbcj)) ++ BitVec.ofNat 3 (n / 2)

/-- The word of ADCJ and SBCJ (30_encoding.md R141, R142). -/
def baseWord (op : BaseOp) (o : ImmObj) (n : Nat) : Word :=
  match o with
  | .cur r => wordOffset 1 (baseField op n) r
  | .ind m => wordIndImm 3 0 m (baseField op n)

/-- The fields `cc` and `t` of a branch (30_encoding.md R129). -/
def Cond.fields : Cond → BitVec 2 × Bool
  | .bng => (0, false)
  | .bc => (1, false)
  | .blt => (1, false)
  | .bnc => (1, true)
  | .bge => (1, true)
  | .bz => (2, false)
  | .beq => (2, false)
  | .bnz => (2, true)
  | .bne => (2, true)
  | .ble => (3, false)
  | .bgt => (3, true)

/-- Bits 15 to 4 of MOV reg, #i4 (30_encoding.md R144). -/
def Reg.prefixField : Reg → BitVec 12
  | .ebr => 0x002
  | .cbr => 0x003
  | .y => 0x010
  | .x => 0x011
  | .l => 0x012
  | .h => 0x013
  | .ra0 => 0x020
  | .ra1 => 0x021
  | .ra2 => 0x022
  | .ra3 => 0x023

/-- The words of an instruction. -/
def View.encode : View → List Word
  | .alu op (.sfr r) => [wordOffset 2 op.field r]
  | .alu op (.cur r) => [wordOffset 3 op.field r]
  | .alu op (.ind m) => [op.wordInd m]
  | .movToA (.direct a) => [word12 13 a]
  | .movToA (.ind m) => [wordInd 3 m 0]
  | .movFromA (.direct a) => [word12 12 a]
  | .movFromA (.ind m) => [wordInd 4 m 0]
  | .movAImm i => [0x01C#12 ++ i]
  | .imm op o i => [op.word o i]
  | .bit op o n => [op.word o n]
  | .baseN op o n => [baseWord op o n]
  | .mmov m f n => [wordMmov n m f]
  | .bmov m k n => [wordMmov n m (oneHot k)]
  | .rom .hb m .ra => [wordInd 3 m 2]
  | .rom .hb m (.adr w) => [wordInd 3 m 4, w]
  | .rom .lb m .ra => [wordInd 3 m 3]
  | .rom .lb m (.adr w) => [wordInd 3 m 5, w]
  | .xmLoad m .ra => [wordInd 3 m 6]
  | .xmLoad m (.adr w) => [wordXm m false, w]
  | .xmStore .ra m => [wordInd 3 m 7]
  | .xmStore (.adr w) m => [wordXm m true, w]
  | .nop => [0x0000]
  | .halt => [0x0001]
  | .fclr .g => [0x0002]
  | .fclr .c => [0x0003]
  | .fclr .z => [0x0004]
  | .fclr .flag => [0x0005]
  | .fset .g => [0x0006]
  | .fset .c => [0x0007]
  | .fset .z => [0x0008]
  | .fset .flag => [0x0009]
  | .rt => [0x000B]
  | .rti => [0x000C]
  | .rtnmi => [0x000D]
  | .ei => [0x000E]
  | .di => [0x000F]
  | .push .hl => [0x0010]
  | .push .xy => [0x0011]
  | .pop .hl => [0x0012]
  | .pop .xy => [0x0013]
  | .ljmp w => [0x0014, w]
  | .lcal w => [0x0015, w]
  | .msa w => [0x0016, w]
  | .jmpPcA => [0x0017]
  | .incb .hl => [0x0018]
  | .incb .xy => [0x0019]
  | .incw => [0x001A]
  | .movReg r i => [r.prefixField ++ i]
  | .jmp a => [word12 14 a]
  | .cal a => [word12 15 a]
  | .branch b d => [wordRel b.fields.1 b.fields.2 d]
  | .sjmp d => [wordRel 0 true d]

/-- The words of a well-formed instruction (30_encoding.md R122 to R145). -/
def encode (i : Instr) : List Word := i.view.encode

/-! ## Second spellings -/

/-- The primary spelling of an operation with an immediate (30_encoding.md R146). -/
def ImmOp.primary : ImmOp → ImmOp
  | .mclr => .and
  | .mset => .or
  | .mnot => .xor
  | .mov => .mov
  | .add => .add
  | .sub => .sub
  | .cmp => .cmp
  | .and => .and
  | .or => .or
  | .xor => .xor
  | .mtst => .mtst

/-- The operation with an immediate that an operation on one bit is (30_encoding.md R145, R146). -/
def BitOp.primary : BitOp → ImmObj → Fin 4 → View
  | .btst, o, n => .imm .mtst o (oneHot n)
  | .bclr, o, n => .imm .and o (oneCold n)
  | .bset, o, n => .imm .or o (oneHot n)
  | .bnot, o, n => .imm .xor o (oneHot n)

/-- The primary spelling of a branch (30_encoding.md R146). -/
def Cond.primary : Cond → Cond
  | .bng => .bng
  | .bc => .bc
  | .blt => .bc
  | .bnc => .bnc
  | .bge => .bnc
  | .bz => .bz
  | .beq => .bz
  | .bnz => .bnz
  | .bne => .bnz
  | .ble => .ble
  | .bgt => .bgt

/-- The primary spelling of the words an operation and an operand form encode to (30_encoding.md R146). -/
def View.primary : View → View
  | .imm op o i => .imm op.primary o i
  | .bit op o n => op.primary o n
  | .bmov m k n => .mmov m (oneHot k) n
  | .branch b d => .branch b.primary d
  | .alu op o => .alu op o
  | .movToA o => .movToA o
  | .movFromA o => .movFromA o
  | .movAImm i => .movAImm i
  | .baseN op o n => .baseN op o n
  | .mmov m f n => .mmov m f n
  | .rom h m s => .rom h m s
  | .xmLoad m s => .xmLoad m s
  | .xmStore d m => .xmStore d m
  | .push p => .push p
  | .pop p => .pop p
  | .fclr f => .fclr f
  | .fset f => .fset f
  | .ljmp w => .ljmp w
  | .jmp a => .jmp a
  | .sjmp d => .sjmp d
  | .jmpPcA => .jmpPcA
  | .lcal w => .lcal w
  | .cal a => .cal a
  | .rt => .rt
  | .rti => .rti
  | .rtnmi => .rtnmi
  | .nop => .nop
  | .halt => .halt
  | .ei => .ei
  | .di => .di
  | .msa w => .msa w
  | .movReg r i => .movReg r i
  | .incb p => .incb p
  | .incw => .incw

/-- The primary instruction of the words an instruction encodes to: the one the decoder answers
(30_encoding.md R146; 44_mask_bit.md R341). -/
def Instr.primary (i : Instr) : Instr := i.view.primary.toInstr

/-! ## Words and machine cycles -/

/-- How many words: two where a sixteen-bit address follows (30_encoding.md R120). -/
def FarAddr.words : FarAddr → Nat
  | .ra => 1
  | .adr _ => 2

/-- How many words an instruction has (30_encoding.md R120). -/
def View.words : View → Nat
  | .rom _ _ s => s.words
  | .xmLoad _ s => s.words
  | .xmStore d _ => d.words
  | .ljmp _ => 2
  | .lcal _ => 2
  | .msa _ => 2
  | .alu _ _ => 1
  | .movToA _ => 1
  | .movFromA _ => 1
  | .movAImm _ => 1
  | .imm _ _ _ => 1
  | .bit _ _ _ => 1
  | .baseN _ _ _ => 1
  | .mmov _ _ _ => 1
  | .bmov _ _ _ => 1
  | .push _ => 1
  | .pop _ => 1
  | .fclr _ => 1
  | .fset _ => 1
  | .jmp _ => 1
  | .sjmp _ => 1
  | .jmpPcA => 1
  | .branch _ _ => 1
  | .cal _ => 1
  | .rt => 1
  | .rti => 1
  | .rtnmi => 1
  | .nop => 1
  | .halt => 1
  | .ei => 1
  | .di => 1
  | .movReg _ _ => 1
  | .incb _ => 1
  | .incw => 1

/-- How many machine cycles an instruction takes (30_encoding.md R155; 70_reset_and_hazards.md R570). -/
def View.cycles : View → Nat
  | .rom _ _ .ra => 2
  | .rom _ _ (.adr _) => 3
  | .xmLoad _ .ra => 2
  | .xmLoad _ (.adr _) => 3
  | .xmStore _ _ => 3
  | .push _ => 2
  | .pop _ => 2
  | .ljmp _ => 2
  | .lcal _ => 2
  | .msa _ => 3
  | .alu _ _ => 1
  | .movToA _ => 1
  | .movFromA _ => 1
  | .movAImm _ => 1
  | .imm _ _ _ => 1
  | .bit _ _ _ => 1
  | .baseN _ _ _ => 1
  | .mmov _ _ _ => 1
  | .bmov _ _ _ => 1
  | .fclr _ => 1
  | .fset _ => 1
  | .jmp _ => 1
  | .sjmp _ => 1
  | .jmpPcA => 1
  | .branch _ _ => 1
  | .cal _ => 1
  | .rt => 1
  | .rti => 1
  | .rtnmi => 1
  | .nop => 1
  | .halt => 1
  | .ei => 1
  | .di => 1
  | .movReg _ _ => 1
  | .incb _ => 1
  | .incw => 1

/-- How many words an instruction has (30_encoding.md R120). -/
def Instr.words (i : Instr) : Nat := i.view.words

/-- How many machine cycles an instruction takes (70_reset_and_hazards.md R570). -/
def Instr.cycles (i : Instr) : Nat := i.view.cycles

end

end Sys2Proof
end

