-- ==== Sys2Proof/Machine/State.lean ====
section
/-! DEFINITION. The state of the machine, as plain data: the registers and stacks of 10_state.md R20, the three
memories of R40, the device parameters, the environment's schedule and the record of what devices see; the
reasons a step can stop; the state right after reset. -/

namespace Sys2Proof.Machine

/-- A memory of `w`-bit locations: (address, content) pairs, addresses strictly rising. An address that is not
listed has no content of its own, and what it reads as is said by the operation of the space
(Machine/Ops.lean). `Mem 8` is a list of `Host.Cell`. -/
abbrev Mem (w : Nat) := List (Nat × BitVec w)

/-- An interrupt start address: `k` stands for `k + 1`, so the sixteen-bit address is 0001H to 00FFH
(20_memory.md R73; 60_exceptions.md R504). -/
abbrev StartAddress := Fin 255

/-- What the environment presents at one instruction boundary (60_exceptions.md R504, R520; 70_reset_and_hazards.md
R551): the reset input, the `HALT_WAKE` event, and of the requests pending in `IRQ` the one of each kind that is to
be accepted (R509). -/
structure Stimulus where
  /-- The reset input is active. -/
  reset : Bool
  /-- `HALT_WAKE` releases halt mode. -/
  wake : Bool
  /-- A pending non-maskable request. -/
  nmi : Option StartAddress
  /-- A pending maskable request. -/
  irq : Option StartAddress
  deriving DecidableEq, Repr

/-- Nothing is presented. -/
def Stimulus.quiet : Stimulus := { reset := false, wake := false, nmi := none, irq := none }

/-- What a device sees of the core: an access to a peripheral SFR (20_memory.md R77) or to external memory (R79),
or the start of a melody (48_control.md R464). -/
inductive BusEvent where
  | sfrRead (a : DataAddr)
  | sfrWrite (a : DataAddr) (v : Nibble)
  | xmRead (a : Word)
  | xmWrite (a : Word) (v : Byte)
  | melodyStart (a : Word)
  deriving DecidableEq, Repr

/-- The state (10_state.md R20, R40). -/
structure State where
  /-- Accumulator A (R21). -/
  a : Nibble
  /-- Zero flag Z (R24). -/
  z : Bool
  /-- Carry flag C (R23). -/
  c : Bool
  /-- G flag (R25). -/
  g : Bool
  /-- Master interrupt enable flag MIE (R26). -/
  mie : Bool
  /-- Register H (R27). -/
  h : Nibble
  /-- Register L (R27). -/
  l : Nibble
  /-- Register X (R27). -/
  x : Nibble
  /-- Register Y (R27). -/
  y : Nibble
  /-- Current bank register CBR (R29). -/
  cbr : Nibble
  /-- Extra bank register EBR (R29). -/
  ebr : Nibble
  /-- Address register nibble RA0 (R30). -/
  ra0 : Nibble
  /-- Address register nibble RA1 (R30). -/
  ra1 : Nibble
  /-- Address register nibble RA2 (R30). -/
  ra2 : Nibble
  /-- Address register nibble RA3 (R30). -/
  ra3 : Nibble
  /-- Program counter: the address of the first word of the instruction about to be executed (R31). -/
  pc : Word
  /-- Call stack pointer SP (R32). -/
  sp : BitVec 5
  /-- Call stack CSTACK (R33). -/
  cstack : Vector Word 32
  /-- Register stack pointer RSP (R34). -/
  rsp : Nibble
  /-- Register stack RSTACK (R35). -/
  rstack : Vector Word 16
  /-- Hidden bit MIE_SAVED (R38). -/
  mieSaved : Bool
  /-- Hidden bit HALTED (R39). -/
  halted : Bool
  /-- Data RAM, addresses 100H to 0FFFH: the nibbles written since reset (R40; 20_memory.md R78). -/
  ram : Mem 4
  /-- Program memory: exactly the implemented words, `PM` and `PM_IMPL` (R40; 20_memory.md R71). -/
  pm : Mem 16
  /-- External memory: the bytes written since reset to plain storage (R40; 20_memory.md R79). -/
  xm : Mem 8
  /-- The parameters of the device (00_scope.md R8). -/
  device : Device
  /-- What the environment presents at the coming instruction boundaries, the next one first. -/
  env : List Stimulus
  /-- What devices saw, the latest first. -/
  trace : List BusEvent
  /-- How many free values were drawn. -/
  draws : Nat
  /-- How many system resets happened. -/
  resets : Nat
  /-- The machine cycles of the instructions executed (70_reset_and_hazards.md R570). -/
  cycles : Nat
  deriving DecidableEq, Repr

/-- Why the machine stops at an access the spec gives no meaning to. Both are safe: the hardware does something
the spec does not describe (60_exceptions.md R501). -/
inductive Fault where
  /-- Raised by a fetch, by MOVHB, by MOVLB and by the look at the word after HALT, at a program address outside
  `PM_IMPL` (20_memory.md R71; 93_implementation_defined.md U9). Safe. -/
  | programAddressNotImplemented
  /-- Raised by every access to a data RAM address outside `DM_IMPL` (20_memory.md R78;
  93_implementation_defined.md U9). Safe. -/
  | dataAddressNotImplemented
  deriving DecidableEq, Repr

/-- Why an instruction has no next state. All are safe: the spec gives no outcome there. -/
inductive Refusal where
  /-- Raised by `exec` for an instruction without a meaning. No arm of this model raises it. Safe. -/
  | notModelled (mnemonic : String)
  /-- Raised by the fetch of a first word assigned to no instruction (30_encoding.md R147; U3). Safe. -/
  | undefinedOpcode (w : Word)
  /-- Raised by MMOV, BMOV, FCLR FLAG and FSET FLAG on the nX-4/250 (30_encoding.md R148; U4). Safe. -/
  | notProvidedOn250
  /-- Raised by a post-increment form that addresses 0F9H to 0FEH (20_memory.md R89; U1). Safe. -/
  | postincThroughPairOrBank
  /-- Raised by HALT whose next word is not 0000H (48_control.md R461; U6). Safe. -/
  | haltNotFollowedByNop
  /-- Raised by MSA on a device without a melody circuit (48_control.md R464; U5). Safe. -/
  | melodyCircuitAbsent
  deriving DecidableEq, Repr

/-- The device of the reset state: an nX-4/300 with all data RAM, external memory that is plain storage, a melody
circuit, and either admissible `OBJ1_CARRY`. DESIGN CHOICE: 00_scope.md R8 leaves these to the device. -/
def Device.reset : Device :=
  { core := .nx300
    dmImpl := [{ base := 0x100, size := 0xF00 }]
    xmStorage := [{ base := 0, size := 0x10000 }]
    melody := true
    obj1Carry := Config.obj1Carry }

/-- The state after a system reset (10_state.md R60, R61; 70_reset_and_hazards.md R550). The spec gives no value for
G, MIE_SAVED and the stack slots: DESIGN CHOICE, they hold 0 here. Memories list nothing. -/
def State.reset : State :=
  { a := 0
    z := false
    c := false
    g := false
    mie := false
    h := 0
    l := 0
    x := 0
    y := 0
    cbr := 0
    ebr := 0
    ra0 := 0
    ra1 := 0
    ra2 := 0
    ra3 := 0
    pc := 0
    sp := 0
    cstack := Vector.replicate 32 0
    rsp := 0
    rstack := Vector.replicate 16 0
    mieSaved := false
    halted := false
    ram := []
    pm := []
    xm := []
    device := Device.reset
    env := []
    trace := []
    draws := 0
    resets := 0
    cycles := 0 }

end Sys2Proof.Machine
end

