-- ==== Sys2Proof/Machine/Flags.lean ====
section
/-! DEFINITION. What each operation on a nibble computes: the result, the accumulator, Z and C
(41_rotate_incdec.md to 44_mask_bit.md), and the packing of the flags into a nibble (10_state.md R36). Every
"= 0" condition is on the four-bit result, every carry or borrow on the unreduced integer (42_arithmetic.md R270;
D3). -/

namespace Sys2Proof.Machine

/-- What an operation on a location works from: the nibble read, A, Z and C. -/
structure AluIn where
  v : Nibble
  a : Nibble
  z : Bool
  c : Bool
  deriving DecidableEq, Repr

/-- What an operation on a location leaves: the nibble to write to the location, if it writes one, A, Z and C. -/
structure AluOut where
  store : Option Nibble
  a : Nibble
  z : Bool
  c : Bool
  deriving DecidableEq, Repr

/-- A flag as a number. -/
def bit (b : Bool) : Nat := if b then 1 else 0

/-- The result goes to the location and to A, and Z says whether it is 0. -/
def resultOut (r : Nibble) (c : Bool) : AluOut := { store := some r, a := r, z := decide (r = 0), c := c }

/-- `v + y + cin` (R260 to R262). -/
def addOut (y : Nibble) (cin : Nat) (i : AluIn) : AluOut :=
  let t := i.v.toNat + y.toNat + cin
  resultOut (BitVec.ofNat 4 t) (decide (15 < t))

/-- `v - y - cin` (R265 to R267): C is the borrow. -/
def subOut (y : Nibble) (cin : Nat) (i : AluIn) : AluOut :=
  let t : Int := (i.v.toNat : Int) - (y.toNat : Int) - (cin : Int)
  resultOut (BitVec.ofInt 4 t) (decide (t < 0))

/-- ADCD: one decimal digit of addition (R263; D16). -/
def adcdOut (i : AluIn) : AluOut :=
  let t := i.v.toNat + i.a.toNat + bit i.c
  if 9 < t then resultOut (BitVec.ofNat 4 (t + 6)) true else resultOut (BitVec.ofNat 4 t) false

/-- SBCD: one decimal digit of subtraction (R268; D16). -/
def sbcdOut (i : AluIn) : AluOut :=
  let t : Int := (i.v.toNat : Int) - (i.a.toNat : Int) - (bit i.c : Int)
  if t < 0 then resultOut (BitVec.ofInt 4 (t + 26)) true else resultOut (BitVec.ofInt 4 t) false

/-- ADCJ: the carry added into one base-n digit (R264; D14). -/
def adcjOut (n : Nat) (i : AluIn) : AluOut :=
  let t := i.v.toNat + bit i.c
  if n ≤ t then resultOut (BitVec.ofNat 4 (t + 16 - n)) true else resultOut (BitVec.ofNat 4 t) false

/-- SBCJ: the borrow taken from one base-n digit (R269; D15). -/
def sbcjOut (n : Nat) (i : AluIn) : AluOut :=
  let t : Int := (i.v.toNat : Int) - (bit i.c : Int)
  if t < 0 then resultOut (BitVec.ofNat 4 (15 + n)) true else resultOut (BitVec.ofInt 4 t) false

/-- INC: C and Z are both 1 exactly on the wrap (R232). -/
def incOut (i : AluIn) : AluOut := resultOut (i.v + 1) (decide (i.v = 15))

/-- DEC: C is the borrow (R233). -/
def decOut (i : AluIn) : AluOut := resultOut (i.v - 1) (decide (i.v = 0))

/-- ROL: left through C (R230). -/
def rolOut (i : AluIn) : AluOut := resultOut (i.v.extractLsb' 0 3 ++ BitVec.ofBool i.c) (i.v.getLsbD 3)

/-- ROR: right through C (R231). -/
def rorOut (i : AluIn) : AluOut := resultOut (BitVec.ofBool i.c ++ i.v.extractLsb' 1 3) (i.v.getLsbD 0)

/-- CMP: Z and C of the unsigned comparison; nothing else is written (R300, R301). -/
def cmpOut (y : Nibble) (i : AluIn) : AluOut :=
  { store := none, a := i.a, z := decide (i.v = y), c := decide (i.v.toNat < y.toNat) }

/-- AND (R302, R303) and MCLR (R332). -/
def andOut (y : Nibble) (i : AluIn) : AluOut := resultOut (i.v &&& y) i.c

/-- OR (R304, R305) and MSET (R333). -/
def orOut (y : Nibble) (i : AluIn) : AluOut := resultOut (i.v ||| y) i.c

/-- XOR (R306, R307) and MNOT (R334). -/
def xorOut (y : Nibble) (i : AluIn) : AluOut := resultOut (i.v ^^^ y) i.c

/-- XCH: the location and A change places, and no flag is written (R204). -/
def xchOut (i : AluIn) : AluOut := { store := some i.a, a := i.v, z := i.z, c := i.c }

/-- MTST: Z says that a tested bit is 0; nothing else is written (R330, R331). -/
def mtstOut (m : Nibble) (i : AluIn) : AluOut :=
  { store := none, a := i.a, z := decide (i.v &&& m ≠ m), c := i.c }

/-- BTST: Z is the complement of the bit (R336). -/
def btstOut (n : Fin 4) (i : AluIn) : AluOut := { store := none, a := i.a, z := !i.v.getLsbD n, c := i.c }

/-- BCLR (R337). -/
def bclrOut (n : Fin 4) (i : AluIn) : AluOut := resultOut (i.v &&& ~~~(1#4 <<< n.val)) i.c

/-- BSET: Z is 0, the result being never 0 (R338; D17). -/
def bsetOut (n : Fin 4) (i : AluIn) : AluOut :=
  let r := i.v ||| (1#4 <<< n.val)
  { store := some r, a := r, z := false, c := i.c }

/-- BNOT (R339). -/
def bnotOut (n : Fin 4) (i : AluIn) : AluOut := resultOut (i.v ^^^ (1#4 <<< n.val)) i.c

/-- MMOV: bit `n` of A goes to every bit where the mask has a 1 (R335; D19). -/
def mmovOut (m : Nibble) (n : Fin 4) (i : AluIn) : AluOut :=
  resultOut ((i.v &&& ~~~m) ||| (if i.a.getLsbD n then m else 0)) i.c

/-- BMOV: bit `n` of A goes to bit `k` (R340; D19). -/
def bmovOut (k n : Fin 4) (i : AluIn) : AluOut :=
  resultOut ((i.v &&& ~~~(1#4 <<< k.val)) ||| (BitVec.ofNat 4 (bit (i.a.getLsbD n)) <<< k.val)) i.c

/-- MOV A, obj: Z of the nibble read (R200). -/
def movToAOut (i : AluIn) : AluOut := { store := none, a := i.v, z := decide (i.v = 0), c := i.c }

/-- MOV obj, A: no flag is written (R202). Nothing is read: the field `v` is not used. -/
def movFromAOut (i : AluIn) : AluOut := { store := some i.a, a := i.a, z := i.z, c := i.c }

/-- MOV obj, #i4: the immediate goes to the location and to A (R203). Nothing is read: the field `v` is not used. -/
def movImmOut (y : Nibble) (i : AluIn) : AluOut := resultOut y i.c

/-! ## The flags as a nibble -/

/-- `FLAGPACK(Z, C, G)`: an unknown injective packing (10_state.md R36; D8). -/
def flagPack (z c g : Bool) : Nibble :=
  Config.flagPerm (0#1 ++ BitVec.ofBool z ++ BitVec.ofBool c ++ BitVec.ofBool g)

/-- `FLAGUNPACK`: the inverse of `FLAGPACK`, and an unknown answer on the nibbles `FLAGPACK` never gives
(10_state.md R36; D8). -/
def flagUnpack (n : Nibble) : Bool × Bool × Bool :=
  let u := Config.flagPerm.symm n
  if u.getLsbD 3 then Config.flagUnpackOther n else (u.getLsbD 2, u.getLsbD 1, u.getLsbD 0)

end Sys2Proof.Machine
end

