-- ==== Sys2Proof/Machine/Ops.lean ====
section
/-! DEFINITION. The named operations over memories, registers and stacks; system reset and interrupt entry; the
returns. -/

namespace Sys2Proof.Machine

/-- What an instruction answers. -/
abbrev Exec := Host.Outcome State Fault Refusal

/-! ## A memory as a list -/

/-- The content an address lists, if it lists one. -/
def Memory.read {w : Nat} : Mem w → Nat → Option (BitVec w)
  | [], _ => none
  | (k, v) :: m, a => if a = k then some v else Memory.read m a

/-- Store one location, keeping the addresses strictly rising. -/
def Memory.write {w : Nat} : Mem w → Nat → BitVec w → Mem w
  | [], a, v => [(a, v)]
  | (k, u) :: m, a, v =>
    if a < k then (a, v) :: (k, u) :: m
    else if a = k then (a, v) :: m
    else (k, u) :: Memory.write m a v

/-- The addresses rise strictly from `lo` on. -/
def Memory.risesFrom {w : Nat} : Nat → Mem w → Bool
  | _, [] => true
  | lo, (k, _) :: m => decide (lo ≤ k) && Memory.risesFrom (k + 1) m

/-- The canonical form: addresses strictly rising. No entry can equal what an unlisted address reads as, because
an unlisted address has no content at this level (`Memory.read` answers `none`). -/
def Memory.wf {w : Nat} (m : Mem w) : Bool := Memory.risesFrom 0 m

/-! ## Register pairs and address registers -/

/-- The value of a pair: HL is `H : L`, XY is `X : Y` (10_state.md R28). -/
def pairValue (p : Pair) (s : State) : Byte :=
  match p with
  | .hl => s.h ++ s.l
  | .xy => s.x ++ s.y

/-- Write a pair (10_state.md R28). -/
def setPair (p : Pair) (t : Byte) (s : State) : State :=
  match p with
  | .hl => { s with h := t.extractLsb' 4 4, l := t.extractLsb' 0 4 }
  | .xy => { s with x := t.extractLsb' 4 4, y := t.extractLsb' 0 4 }

/-- `postinc(P, k)`: the pair counts up by `k` modulo 256, and G says whether it overflowed (20_memory.md R87 for
`k` = 1, R88 for `k` = 2; 41_rotate_incdec.md R234). -/
def postInc (p : Pair) (k : Nat) (s : State) : State :=
  let t := (pairValue p s).toNat + k
  { setPair p (BitVec.ofNat 8 t) s with g := decide (255 < t) }

/-- A bank register (10_state.md R29). -/
def bankValue (b : Bank) (s : State) : Nibble :=
  match b with
  | .cbr => s.cbr
  | .ebr => s.ebr

/-- RA is `RA3 : RA2 : RA1 : RA0` (10_state.md R30). -/
def raValue (s : State) : Word := s.ra3 ++ s.ra2 ++ s.ra1 ++ s.ra0

/-- Write RA (10_state.md R30). -/
def setRa (t : Word) (s : State) : State :=
  { s with
    ra3 := t.extractLsb' 12 4
    ra2 := t.extractLsb' 8 4
    ra1 := t.extractLsb' 4 4
    ra0 := t.extractLsb' 0 4 }

/-- Write a register MOV reg, #i4 names (48_control.md R465). -/
def setReg (r : Reg) (i : Nibble) (s : State) : State :=
  match r with
  | .ebr => { s with ebr := i }
  | .cbr => { s with cbr := i }
  | .y => { s with y := i }
  | .x => { s with x := i }
  | .l => { s with l := i }
  | .h => { s with h := i }
  | .ra0 => { s with ra0 := i }
  | .ra1 => { s with ra1 := i }
  | .ra2 => { s with ra2 := i }
  | .ra3 => { s with ra3 := i }

/-- `pc` moves past an instruction of `n` words, modulo 2^16 (10_state.md R31; D2). -/
def advance (n : Nat) (s : State) : State := { s with pc := s.pc + BitVec.ofNat 16 n }

/-! ## Data memory (20_memory.md R74 to R78) -/

/-- The core registers of Table 1-2 (20_memory.md R75). -/
inductive CoreReg where
  | ra0 | ra1 | ra2 | ra3 | rsp | spl | sph | y | x | l | h | cbr | ebr | mief
  deriving DecidableEq, Repr

/-- What lies at a data address: a peripheral SFR, a core register, data RAM (20_memory.md R75 to R78). -/
inductive Place where
  | peripheral
  | core (r : CoreReg)
  | ram
  deriving DecidableEq, Repr

/-- What lies at a data address (20_memory.md R75, R77, R78). -/
def locate (a : DataAddr) : Place :=
  if a.toNat < 0xF2 then .peripheral
  else if 0x100 ≤ a.toNat then .ram
  else
    match a.toNat with
    | 0xF2 => .core .ra0
    | 0xF3 => .core .ra1
    | 0xF4 => .core .ra2
    | 0xF5 => .core .ra3
    | 0xF6 => .core .rsp
    | 0xF7 => .core .spl
    | 0xF8 => .core .sph
    | 0xF9 => .core .y
    | 0xFA => .core .x
    | 0xFB => .core .l
    | 0xFC => .core .h
    | 0xFD => .core .cbr
    | 0xFE => .core .ebr
    | _ => .core .mief

/-- What a core register reads as; the reserved bits of SPH and MIEF read 1 (20_memory.md R76). -/
def coreRegValue (r : CoreReg) (s : State) : Nibble :=
  match r with
  | .ra0 => s.ra0
  | .ra1 => s.ra1
  | .ra2 => s.ra2
  | .ra3 => s.ra3
  | .rsp => s.rsp
  | .spl => s.sp.extractLsb' 0 4
  | .sph => 7#3 ++ s.sp.extractLsb' 4 1
  | .y => s.y
  | .x => s.x
  | .l => s.l
  | .h => s.h
  | .cbr => s.cbr
  | .ebr => s.ebr
  | .mief => 7#3 ++ BitVec.ofBool s.mie

/-- A write to a core register; SPL, SPH and MIEF ignore it (20_memory.md R76, D6). -/
def setCoreReg (r : CoreReg) (v : Nibble) (s : State) : State :=
  match r with
  | .ra0 => { s with ra0 := v }
  | .ra1 => { s with ra1 := v }
  | .ra2 => { s with ra2 := v }
  | .ra3 => { s with ra3 := v }
  | .rsp => { s with rsp := v }
  | .spl => s
  | .sph => s
  | .y => { s with y := v }
  | .x => { s with x := v }
  | .l => { s with l := v }
  | .h => { s with h := v }
  | .cbr => { s with cbr := v }
  | .ebr => { s with ebr := v }
  | .mief => s

/-- The device implements the data address: every SFR address, and the RAM addresses of `DM_IMPL`
(20_memory.md R77, R78). -/
def dmPresent (s : State) (a : DataAddr) : Bool :=
  match locate a with
  | .peripheral => true
  | .core _ => true
  | .ram => s.device.dmImpl.any fun r => r.has a.toNat

/-- What data RAM holds at an address: the nibble last stored, or the free value it came out of reset with
(20_memory.md R78; `RESET_RAM`, 10_state.md R61). -/
def ramValue (s : State) (a : DataAddr) : Nibble :=
  (Memory.read s.ram a.toNat).getD (Config.resetRam s.resets a.toNat)

/-- The value `DmRead(a)` returns (20_memory.md R76 to R78); at a peripheral SFR it is the next free value. -/
def dmValue (s : State) (a : DataAddr) : Nibble :=
  match locate a with
  | .peripheral => Config.freeNibble s.draws
  | .core r => coreRegValue r s
  | .ram => ramValue s a

/-- The state after `DmRead(a)`: only the read of a peripheral SFR has an effect, which its device sees
(20_memory.md R76 to R78). -/
def afterDmRead (s : State) (a : DataAddr) : State :=
  match locate a with
  | .peripheral => { s with draws := s.draws + 1, trace := .sfrRead a :: s.trace }
  | .core _ => s
  | .ram => s

/-- `DmWrite(a, v)` (20_memory.md R76 to R78). -/
def dmStore (s : State) (a : DataAddr) (v : Nibble) : State :=
  match locate a with
  | .peripheral => { s with trace := .sfrWrite a v :: s.trace }
  | .core r => setCoreReg r v s
  | .ram => { s with ram := Memory.write s.ram a.toNat v }

/-- The addresses 0F9H to 0FEH of the pair and bank registers, closed to post-increment forms
(20_memory.md R89). -/
def isPairOrBank (a : DataAddr) : Bool := decide (0xF9 ≤ a.toNat ∧ a.toNat ≤ 0xFE)

/-- The addresses 0F2H to 0F5H and 0F9H to 0FEH, whose registers an 8-bit load leaves undefined
(20_memory.md R90). -/
def isUndefinedDestination (a : DataAddr) : Bool :=
  decide (0xF2 ≤ a.toNat ∧ a.toNat ≤ 0xF5) || isPairOrBank a

/-- The write of one nibble of an 8-bit load: a register of R90 receives the next free value instead
(20_memory.md R90; 45_rom_ext_transfer.md R378; U2). -/
def dmLoadNibble (s : State) (a : DataAddr) (v : Nibble) : State :=
  if isUndefinedDestination a then dmStore { s with draws := s.draws + 1 } a (Config.freeNibble s.draws)
  else dmStore s a v

/-! ## Program memory (20_memory.md R71) -/

/-- `PmRead(a)`, where the device implements the address. -/
def pmRead (s : State) (a : Word) : Option Word := Memory.read s.pm a.toNat

/-- The state with two words of program memory placed from an address on: how the outside world fills it. -/
def placeWords (s : State) (a w0 w1 : Word) : State :=
  { s with pm := Memory.write (Memory.write s.pm a.toNat w0) (a + 1).toNat w1 }

/-! ## External memory (20_memory.md R79) -/

/-- The external address is plain storage. -/
def xmIsStorage (s : State) (a : Word) : Bool := s.device.xmStorage.any fun r => r.has a.toNat

/-- The byte `XmRead(a)` returns: what plain storage holds, a free value at a device (20_memory.md R79, D22). -/
def xmValue (s : State) (a : Word) : Byte :=
  if xmIsStorage s a then (Memory.read s.xm a.toNat).getD (Config.resetXm s.resets a.toNat)
  else Config.freeByte s.draws

/-- The state after `XmRead(a)`. -/
def afterXmRead (s : State) (a : Word) : State :=
  { s with draws := s.draws + (if xmIsStorage s a then 0 else 1), trace := .xmRead a :: s.trace }

/-- `XmWrite(a, v)` (20_memory.md R79). -/
def xmStore (s : State) (a : Word) (v : Byte) : State :=
  { s with
    xm := if xmIsStorage s a then Memory.write s.xm a.toNat v else s.xm
    trace := .xmWrite a v :: s.trace }

/-! ## The stacks (10_state.md R32 to R36) -/

/-- The word of a call stack slot. -/
def callSlot (s : State) (i : BitVec 5) : Word := s.cstack[i.toNat]'i.isLt

/-- `CSTACK[SP] <- w`, then `SP <- SP + 1` modulo 32 (10_state.md R32; D9, D10). -/
def callPush (w : Word) (s : State) : State :=
  { s with cstack := s.cstack.set s.sp.toNat w s.sp.isLt, sp := s.sp + 1 }

/-- `SP <- SP - 1` modulo 32, then `pc <- CSTACK[SP] + 1`: what the three returns share
(47_branch_call.md R433 to R435; D9, D10). -/
def callReturn (s : State) : State :=
  { s with sp := s.sp - 1, pc := callSlot s (s.sp - 1) + 1 }

/-- The word of a register stack slot. -/
def regSlot (s : State) (i : Nibble) : Word := s.rstack[i.toNat]'i.isLt

/-- `RSTACK[RSP] <- w`, then `RSP <- RSP + 1` modulo 16 (10_state.md R34; D9). -/
def regPush (w : Word) (s : State) : State :=
  { s with rstack := s.rstack.set s.rsp.toNat w s.rsp.isLt, rsp := s.rsp + 1 }

/-! ## System reset and interrupt entry -/

/-- System reset (70_reset_and_hazards.md R550, R551): the reset state, with every value the spec leaves open drawn
anew. Program memory, the device, the environment's schedule and the record of what devices saw are not the
core's and stay, as do the model's counters. -/
def systemReset (s : State) : State :=
  let k := s.resets + 1
  { State.reset with
    g := Config.resetG k
    cstack := Vector.ofFn fun i => Config.resetCstack k i.val
    rstack := Vector.ofFn fun i => Config.resetRstack k i.val
    mieSaved := Config.resetMieSaved k
    pm := s.pm
    device := s.device
    env := s.env
    trace := s.trace
    draws := s.draws
    resets := k
    cycles := s.cycles }

/-- The program address of a start address: 0001H to 00FFH (60_exceptions.md R504). -/
def startWord (v : StartAddress) : Word := BitVec.ofNat 16 (v.val + 1)

/-- What both kinds of interrupt entry share: the restart address minus one is saved on the call stack, MIE is
cleared, and the routine starts (60_exceptions.md R506, R507; D18, D31). -/
def enterInterrupt (v : StartAddress) (s : State) : State :=
  { callPush (s.pc - 1) s with mie := false, pc := startWord v }

/-- Entry to a maskable interrupt (60_exceptions.md R506). -/
def acceptIrq (v : StartAddress) (s : State) : State := enterInterrupt v s

/-- Entry to a non-maskable interrupt: as a maskable one, and MIE is kept in MIE_SAVED (60_exceptions.md R507;
D33). -/
def acceptNmi (v : StartAddress) (s : State) : State := { enterInterrupt v s with mieSaved := s.mie }

end Sys2Proof.Machine
end

