-- ==== Sys2Proof/Machine/Operands.lean ====
section
/-! DEFINITION. The operand forms (20_memory.md R83 to R91), the template of an instruction with a data memory
operand (40_transfer.md R205) and that of an 8-bit transfer (45_rom_ext_transfer.md R378). -/

namespace Sys2Proof.Machine

/-- The operand forms of data memory (20_memory.md R83 to R88). -/
inductive Obj where
  | direct (r : DataAddr)
  | sfr (r : Byte)
  | cur (r : Byte)
  | ind (m : Ind)
  deriving DecidableEq, Repr

/-- The bank register of an indirect form (20_memory.md R86). -/
def indBank : Ind → Bank
  | .hl => .cbr
  | .xy => .cbr
  | .eHl => .ebr
  | .eXy => .ebr
  | .hlInc => .cbr
  | .xyInc => .cbr
  | .eHlInc => .ebr
  | .eXyInc => .ebr

/-- The pair of an indirect form (20_memory.md R86). -/
def indPair : Ind → Pair
  | .hl => .hl
  | .xy => .xy
  | .eHl => .hl
  | .eXy => .xy
  | .hlInc => .hl
  | .xyInc => .xy
  | .eHlInc => .hl
  | .eXyInc => .xy

/-- Whether an indirect form is one of post-increment (20_memory.md R87). -/
def indPost : Ind → Bool
  | .hl => false
  | .xy => false
  | .eHl => false
  | .eXy => false
  | .hlInc => true
  | .xyInc => true
  | .eHlInc => true
  | .eXyInc => true

/-- `bank : pair` (20_memory.md R86). -/
def indAddr (m : Ind) (s : State) : DataAddr := bankValue (indBank m) s ++ pairValue (indPair m) s

/-- The data address of an operand, from the registers as they are before the instruction
(20_memory.md R83 to R86). -/
def objAddr (o : Obj) (s : State) : DataAddr :=
  match o with
  | .direct r => r
  | .sfr r => 0#4 ++ r
  | .cur r => s.cbr ++ r
  | .ind m => indAddr m s

/-- Whether an operand form is one of post-increment. -/
def objPost : Obj → Bool
  | .direct _ => false
  | .sfr _ => false
  | .cur _ => false
  | .ind m => indPost m

/-- The close of an indirect form: the pair counts up by `k` in a post-increment form (20_memory.md R87, R88). -/
def indClose (m : Ind) (k : Nat) (s : State) : State :=
  if indPost m then postInc (indPair m) k s else s

/-- The close of an operand form (40_transfer.md R205). -/
def objClose (o : Obj) (s : State) : State :=
  match o with
  | .direct _ => s
  | .sfr _ => s
  | .cur _ => s
  | .ind m => indClose m 1 s

/-! ## The template of an instruction with a data memory operand (40_transfer.md R205) -/

/-- The open: the address, unless a post-increment form addresses a pair or bank register (R89), or the address is
not implemented (R78). -/
def withObj (o : Obj) (s : State) (k : DataAddr → State) : Exec :=
  let ea := objAddr o s
  if objPost o && isPairOrBank ea then .refused .postincThroughPairOrBank
  else if dmPresent s ea then .next (k ea)
  else .fault .dataAddressNotImplemented

/-- Write what an operation leaves: the location, then A, then Z and C (20_memory.md R109). -/
def applyOut (ea : DataAddr) (o : AluOut) (s : State) : State :=
  let t := match o.store with
    | none => s
    | some r => dmStore s ea r
  { t with a := o.a, z := o.z, c := o.c }

/-- An instruction that reads its location once (20_memory.md R82). -/
def onRead (o : Obj) (f : AluIn → AluOut) (s : State) : Exec :=
  withObj o s fun ea =>
    advance 1 (objClose o (applyOut ea (f { v := dmValue s ea, a := s.a, z := s.z, c := s.c }) (afterDmRead s ea)))

/-- An instruction that writes its location without reading it (20_memory.md R82; D52): the operation must not use
the field `v`, which is 0. -/
def onStore (o : Obj) (f : AluIn → AluOut) (s : State) : Exec :=
  withObj o s fun ea =>
    advance 1 (objClose o (applyOut ea (f { v := 0, a := s.a, z := s.z, c := s.c }) s))

/-! ## The operand forms of the syntax -/

/-- An operand of the accumulator operations. -/
def aluObj : AluObj → Obj
  | .sfr r => .sfr r
  | .cur r => .cur r
  | .ind m => .ind m

/-- An operand of the immediate operations. -/
def immObj : ImmObj → Obj
  | .cur r => .cur r
  | .ind m => .ind m

/-- An operand of MOV A, obj and MOV obj, A. -/
def movObj : MovObj → Obj
  | .direct r => .direct r
  | .ind m => .ind m

/-- An instruction only the nX-4/300 core provides (30_encoding.md R148). -/
def only300 (s : State) (e : Exec) : Exec :=
  match s.device.core with
  | .nx300 => e
  | .nx250 => .refused .notProvidedOn250

/-! ## The template of an 8-bit transfer (45_rom_ext_transfer.md R378) -/

/-- The address of "obj+1": the next one, but for the pair 0FFH, where `OBJ1_CARRY` says whether the bank is kept
or counted up (20_memory.md R81; D4). -/
def indAddr1 (m : Ind) (s : State) : DataAddr :=
  if pairValue (indPair m) s = 255 ∧ s.device.obj1Carry = .sameBank then bankValue (indBank m) s ++ 0#8
  else indAddr m s + 1

/-- A post-increment form refuses to address a pair or bank register with either nibble (20_memory.md R89). -/
def byteHazard (m : Ind) (s : State) : Bool :=
  indPost m && (isPairOrBank (indAddr m s) || isPairOrBank (indAddr1 m s))

/-- The load forms: low nibble to `obj`, high nibble to `obj+1`, then the post-increment by two and the step past
`n` words. `s` is the state before the instruction, `t` the state after the source was read. -/
def loadByte (m : Ind) (n : Nat) (s : State) (b : Byte) (t : State) : Exec :=
  let ea := indAddr m s
  let ea1 := indAddr1 m s
  if dmPresent s ea && dmPresent s ea1 then
    .next (advance n (indClose m 2
      (dmLoadNibble (dmLoadNibble t ea (b.extractLsb' 0 4)) ea1 (b.extractLsb' 4 4))))
  else .fault .dataAddressNotImplemented

/-- The address of an 8-bit transfer outside data memory (20_memory.md R93, R95, R98, R99). -/
def farAddr (f : FarAddr) (s : State) : Word :=
  match f with
  | .ra => raValue s
  | .adr w => w

end Sys2Proof.Machine
end

