-- ==== Sys2Proof/Machine/Arithmetic.lean ====
section
/-! DEFINITION. The meanings of additions and subtractions (42_arithmetic.md). A meaning is the operation of its rule on the operand form its name gives. -/

namespace Sys2Proof.Machine

/-- ADD obj, A (R260). -/
def runAdd (o : Obj) (s : State) : Exec := onRead o (fun i => addOut i.a 0 i) s

/-- ADD obj, #i4 (R261). -/
def runAddImm (o : Obj) (y : Nibble) (s : State) : Exec := onRead o (addOut y 0) s

/-- ADC obj, A (R262). -/
def runAdc (o : Obj) (s : State) : Exec := onRead o (fun i => addOut i.a (bit i.c) i) s

/-- ADCD obj, A (R263). -/
def runAdcd (o : Obj) (s : State) : Exec := onRead o adcdOut s

/-- ADCJ obj, n (R264). -/
def runAdcj (o : Obj) (n : Nat) (s : State) : Exec := onRead o (adcjOut n) s

/-- SUB obj, A (R265). -/
def runSub (o : Obj) (s : State) : Exec := onRead o (fun i => subOut i.a 0 i) s

/-- SUB obj, #i4 (R266). -/
def runSubImm (o : Obj) (y : Nibble) (s : State) : Exec := onRead o (subOut y 0) s

/-- SBC obj, A (R267). -/
def runSbc (o : Obj) (s : State) : Exec := onRead o (fun i => subOut i.a (bit i.c) i) s

/-- SBCD obj, A (R268). -/
def runSbcd (o : Obj) (s : State) : Exec := onRead o sbcdOut s

/-- SBCJ obj, n (R269). -/
def runSbcj (o : Obj) (n : Nat) (s : State) : Exec := onRead o (sbcjOut n) s

/-! ## One meaning per row of the opcode table -/

/-- ADD sfr, A -/
def execAddSfrA (r : Byte) (s : State) : Exec := runAdd (.sfr r) s
/-- ADD ¥cur, A -/
def execAddCurA (r : Byte) (s : State) : Exec := runAdd (.cur r) s
/-- ADD [HL], A -/
def execAddHlA (s : State) : Exec := runAdd (.ind .hl) s
/-- ADD [XY], A -/
def execAddXyA (s : State) : Exec := runAdd (.ind .xy) s
/-- ADD E:[HL], A -/
def execAddEHlA (s : State) : Exec := runAdd (.ind .eHl) s
/-- ADD E:[XY], A -/
def execAddEXyA (s : State) : Exec := runAdd (.ind .eXy) s
/-- ADD [HL+], A -/
def execAddHlIncA (s : State) : Exec := runAdd (.ind .hlInc) s
/-- ADD [XY+], A -/
def execAddXyIncA (s : State) : Exec := runAdd (.ind .xyInc) s
/-- ADD E:[HL+], A -/
def execAddEHlIncA (s : State) : Exec := runAdd (.ind .eHlInc) s
/-- ADD E:[XY+], A -/
def execAddEXyIncA (s : State) : Exec := runAdd (.ind .eXyInc) s
/-- ADC sfr, A -/
def execAdcSfrA (r : Byte) (s : State) : Exec := runAdc (.sfr r) s
/-- ADC ¥cur, A -/
def execAdcCurA (r : Byte) (s : State) : Exec := runAdc (.cur r) s
/-- ADC [HL], A -/
def execAdcHlA (s : State) : Exec := runAdc (.ind .hl) s
/-- ADC [XY], A -/
def execAdcXyA (s : State) : Exec := runAdc (.ind .xy) s
/-- ADC E:[HL], A -/
def execAdcEHlA (s : State) : Exec := runAdc (.ind .eHl) s
/-- ADC E:[XY], A -/
def execAdcEXyA (s : State) : Exec := runAdc (.ind .eXy) s
/-- ADC [HL+], A -/
def execAdcHlIncA (s : State) : Exec := runAdc (.ind .hlInc) s
/-- ADC [XY+], A -/
def execAdcXyIncA (s : State) : Exec := runAdc (.ind .xyInc) s
/-- ADC E:[HL+], A -/
def execAdcEHlIncA (s : State) : Exec := runAdc (.ind .eHlInc) s
/-- ADC E:[XY+], A -/
def execAdcEXyIncA (s : State) : Exec := runAdc (.ind .eXyInc) s
/-- ADCD sfr, A -/
def execAdcdSfrA (r : Byte) (s : State) : Exec := runAdcd (.sfr r) s
/-- ADCD ¥cur, A -/
def execAdcdCurA (r : Byte) (s : State) : Exec := runAdcd (.cur r) s
/-- ADCD [HL], A -/
def execAdcdHlA (s : State) : Exec := runAdcd (.ind .hl) s
/-- ADCD [XY], A -/
def execAdcdXyA (s : State) : Exec := runAdcd (.ind .xy) s
/-- ADCD E:[HL], A -/
def execAdcdEHlA (s : State) : Exec := runAdcd (.ind .eHl) s
/-- ADCD E:[XY], A -/
def execAdcdEXyA (s : State) : Exec := runAdcd (.ind .eXy) s
/-- ADCD [HL+], A -/
def execAdcdHlIncA (s : State) : Exec := runAdcd (.ind .hlInc) s
/-- ADCD [XY+], A -/
def execAdcdXyIncA (s : State) : Exec := runAdcd (.ind .xyInc) s
/-- ADCD E:[HL+], A -/
def execAdcdEHlIncA (s : State) : Exec := runAdcd (.ind .eHlInc) s
/-- ADCD E:[XY+], A -/
def execAdcdEXyIncA (s : State) : Exec := runAdcd (.ind .eXyInc) s
/-- SUB sfr, A -/
def execSubSfrA (r : Byte) (s : State) : Exec := runSub (.sfr r) s
/-- SUB ¥cur, A -/
def execSubCurA (r : Byte) (s : State) : Exec := runSub (.cur r) s
/-- SUB [HL], A -/
def execSubHlA (s : State) : Exec := runSub (.ind .hl) s
/-- SUB [XY], A -/
def execSubXyA (s : State) : Exec := runSub (.ind .xy) s
/-- SUB E:[HL], A -/
def execSubEHlA (s : State) : Exec := runSub (.ind .eHl) s
/-- SUB E:[XY], A -/
def execSubEXyA (s : State) : Exec := runSub (.ind .eXy) s
/-- SUB [HL+], A -/
def execSubHlIncA (s : State) : Exec := runSub (.ind .hlInc) s
/-- SUB [XY+], A -/
def execSubXyIncA (s : State) : Exec := runSub (.ind .xyInc) s
/-- SUB E:[HL+], A -/
def execSubEHlIncA (s : State) : Exec := runSub (.ind .eHlInc) s
/-- SUB E:[XY+], A -/
def execSubEXyIncA (s : State) : Exec := runSub (.ind .eXyInc) s
/-- SBC sfr, A -/
def execSbcSfrA (r : Byte) (s : State) : Exec := runSbc (.sfr r) s
/-- SBC ¥cur, A -/
def execSbcCurA (r : Byte) (s : State) : Exec := runSbc (.cur r) s
/-- SBC [HL], A -/
def execSbcHlA (s : State) : Exec := runSbc (.ind .hl) s
/-- SBC [XY], A -/
def execSbcXyA (s : State) : Exec := runSbc (.ind .xy) s
/-- SBC E:[HL], A -/
def execSbcEHlA (s : State) : Exec := runSbc (.ind .eHl) s
/-- SBC E:[XY], A -/
def execSbcEXyA (s : State) : Exec := runSbc (.ind .eXy) s
/-- SBC [HL+], A -/
def execSbcHlIncA (s : State) : Exec := runSbc (.ind .hlInc) s
/-- SBC [XY+], A -/
def execSbcXyIncA (s : State) : Exec := runSbc (.ind .xyInc) s
/-- SBC E:[HL+], A -/
def execSbcEHlIncA (s : State) : Exec := runSbc (.ind .eHlInc) s
/-- SBC E:[XY+], A -/
def execSbcEXyIncA (s : State) : Exec := runSbc (.ind .eXyInc) s
/-- SBCD sfr, A -/
def execSbcdSfrA (r : Byte) (s : State) : Exec := runSbcd (.sfr r) s
/-- SBCD ¥cur, A -/
def execSbcdCurA (r : Byte) (s : State) : Exec := runSbcd (.cur r) s
/-- SBCD [HL], A -/
def execSbcdHlA (s : State) : Exec := runSbcd (.ind .hl) s
/-- SBCD [XY], A -/
def execSbcdXyA (s : State) : Exec := runSbcd (.ind .xy) s
/-- SBCD E:[HL], A -/
def execSbcdEHlA (s : State) : Exec := runSbcd (.ind .eHl) s
/-- SBCD E:[XY], A -/
def execSbcdEXyA (s : State) : Exec := runSbcd (.ind .eXy) s
/-- SBCD [HL+], A -/
def execSbcdHlIncA (s : State) : Exec := runSbcd (.ind .hlInc) s
/-- SBCD [XY+], A -/
def execSbcdXyIncA (s : State) : Exec := runSbcd (.ind .xyInc) s
/-- SBCD E:[HL+], A -/
def execSbcdEHlIncA (s : State) : Exec := runSbcd (.ind .eHlInc) s
/-- SBCD E:[XY+], A -/
def execSbcdEXyIncA (s : State) : Exec := runSbcd (.ind .eXyInc) s
/-- ADD ¥cur, #i4 -/
def execAddCurI (r : Byte) (i : Nibble) (s : State) : Exec := runAddImm (.cur r) i s
/-- ADD [HL], #i4 -/
def execAddHlI (i : Nibble) (s : State) : Exec := runAddImm (.ind .hl) i s
/-- ADD [XY], #i4 -/
def execAddXyI (i : Nibble) (s : State) : Exec := runAddImm (.ind .xy) i s
/-- ADD E:[HL], #i4 -/
def execAddEHlI (i : Nibble) (s : State) : Exec := runAddImm (.ind .eHl) i s
/-- ADD E:[XY], #i4 -/
def execAddEXyI (i : Nibble) (s : State) : Exec := runAddImm (.ind .eXy) i s
/-- ADD [HL+], #i4 -/
def execAddHlIncI (i : Nibble) (s : State) : Exec := runAddImm (.ind .hlInc) i s
/-- ADD [XY+], #i4 -/
def execAddXyIncI (i : Nibble) (s : State) : Exec := runAddImm (.ind .xyInc) i s
/-- ADD E:[HL+], #i4 -/
def execAddEHlIncI (i : Nibble) (s : State) : Exec := runAddImm (.ind .eHlInc) i s
/-- ADD E:[XY+], #i4 -/
def execAddEXyIncI (i : Nibble) (s : State) : Exec := runAddImm (.ind .eXyInc) i s
/-- SUB ¥cur, #i4 -/
def execSubCurI (r : Byte) (i : Nibble) (s : State) : Exec := runSubImm (.cur r) i s
/-- SUB [HL], #i4 -/
def execSubHlI (i : Nibble) (s : State) : Exec := runSubImm (.ind .hl) i s
/-- SUB [XY], #i4 -/
def execSubXyI (i : Nibble) (s : State) : Exec := runSubImm (.ind .xy) i s
/-- SUB E:[HL], #i4 -/
def execSubEHlI (i : Nibble) (s : State) : Exec := runSubImm (.ind .eHl) i s
/-- SUB E:[XY], #i4 -/
def execSubEXyI (i : Nibble) (s : State) : Exec := runSubImm (.ind .eXy) i s
/-- SUB [HL+], #i4 -/
def execSubHlIncI (i : Nibble) (s : State) : Exec := runSubImm (.ind .hlInc) i s
/-- SUB [XY+], #i4 -/
def execSubXyIncI (i : Nibble) (s : State) : Exec := runSubImm (.ind .xyInc) i s
/-- SUB E:[HL+], #i4 -/
def execSubEHlIncI (i : Nibble) (s : State) : Exec := runSubImm (.ind .eHlInc) i s
/-- SUB E:[XY+], #i4 -/
def execSubEXyIncI (i : Nibble) (s : State) : Exec := runSubImm (.ind .eXyInc) i s
/-- ADCJ ¥cur, n -/
def execAdcjCurN (r : Byte) (n : Nat) (s : State) : Exec := runAdcj (.cur r) n s
/-- SBCJ ¥cur, n -/
def execSbcjCurN (r : Byte) (n : Nat) (s : State) : Exec := runSbcj (.cur r) n s
/-- ADCJ [HL], n -/
def execAdcjHlN (n : Nat) (s : State) : Exec := runAdcj (.ind .hl) n s
/-- SBCJ [HL], n -/
def execSbcjHlN (n : Nat) (s : State) : Exec := runSbcj (.ind .hl) n s
/-- ADCJ [XY], n -/
def execAdcjXyN (n : Nat) (s : State) : Exec := runAdcj (.ind .xy) n s
/-- SBCJ [XY], n -/
def execSbcjXyN (n : Nat) (s : State) : Exec := runSbcj (.ind .xy) n s
/-- ADCJ E:[HL], n -/
def execAdcjEHlN (n : Nat) (s : State) : Exec := runAdcj (.ind .eHl) n s
/-- SBCJ E:[HL], n -/
def execSbcjEHlN (n : Nat) (s : State) : Exec := runSbcj (.ind .eHl) n s
/-- ADCJ E:[XY], n -/
def execAdcjEXyN (n : Nat) (s : State) : Exec := runAdcj (.ind .eXy) n s
/-- SBCJ E:[XY], n -/
def execSbcjEXyN (n : Nat) (s : State) : Exec := runSbcj (.ind .eXy) n s
/-- ADCJ [HL+], n -/
def execAdcjHlIncN (n : Nat) (s : State) : Exec := runAdcj (.ind .hlInc) n s
/-- SBCJ [HL+], n -/
def execSbcjHlIncN (n : Nat) (s : State) : Exec := runSbcj (.ind .hlInc) n s
/-- ADCJ [XY+], n -/
def execAdcjXyIncN (n : Nat) (s : State) : Exec := runAdcj (.ind .xyInc) n s
/-- SBCJ [XY+], n -/
def execSbcjXyIncN (n : Nat) (s : State) : Exec := runSbcj (.ind .xyInc) n s
/-- ADCJ E:[HL+], n -/
def execAdcjEHlIncN (n : Nat) (s : State) : Exec := runAdcj (.ind .eHlInc) n s
/-- SBCJ E:[HL+], n -/
def execSbcjEHlIncN (n : Nat) (s : State) : Exec := runSbcj (.ind .eHlInc) n s
/-- ADCJ E:[XY+], n -/
def execAdcjEXyIncN (n : Nat) (s : State) : Exec := runAdcj (.ind .eXyInc) n s
/-- SBCJ E:[XY+], n -/
def execSbcjEXyIncN (n : Nat) (s : State) : Exec := runSbcj (.ind .eXyInc) n s

end Sys2Proof.Machine
end

