-- ==== Sys2Proof/Machine/BranchCall.lean ====
section
/-! DEFINITION. The meanings of branches, calls and returns (47_branch_call.md). A meaning is the operation of its rule on the operand form its name gives. -/

namespace Sys2Proof.Machine

/-- LJMP cadr16 (R420). -/
def runLjmp (w : Word) (s : State) : Exec := .next { s with pc := w }

/-- The address in the page of the instruction itself (20_memory.md R94; D13). -/
def pageAddr (s : State) (a : BitVec 12) : Word := s.pc.extractLsb' 12 4 ++ a

/-- JMP cadr12 (R421). -/
def runJmp (a : BitVec 12) (s : State) : Exec := .next { s with pc := pageAddr s a }

/-- The target of a relative branch, from the address after the instruction (20_memory.md R96). -/
def relTarget (s : State) (d : Byte) : Word := s.pc + 1 + d.signExtend 16

/-- SJMP radr8 (R422). -/
def runSjmp (d : Byte) (s : State) : Exec := .next { s with pc := relTarget s d }

/-- JMP PC+A: A is unsigned (R423). -/
def runJmpPcA (s : State) : Exec := .next { s with pc := s.pc + 1 + s.a.setWidth 16 }

/-- The condition of a branch (R424 to R430, R436). -/
def condHolds (b : Cond) (s : State) : Bool :=
  match b with
  | .bng => !s.g
  | .bc => s.c
  | .blt => s.c
  | .bnc => !s.c
  | .bge => !s.c
  | .bz => s.z
  | .beq => s.z
  | .bnz => !s.z
  | .bne => !s.z
  | .ble => s.c || s.z
  | .bgt => !s.c && !s.z

/-- The conditional branches (R424 to R430). -/
def runBranch (b : Cond) (d : Byte) (s : State) : Exec :=
  .next { s with pc := if condHolds b s then relTarget s d else s.pc + 1 }

/-- LCAL cadr16: the address of the second word is saved (R431; D18). -/
def runLcal (w : Word) (s : State) : Exec := .next { callPush (s.pc + 1) s with pc := w }

/-- CAL cadr12: its own address is saved (R432; D13, D18). -/
def runCal (a : BitVec 12) (s : State) : Exec := .next { callPush s.pc s with pc := pageAddr s a }

/-- RT (R433). -/
def runRt (s : State) : Exec := .next (callReturn s)

/-- RTI: MIE becomes 1 (R434). -/
def runRti (s : State) : Exec := .next { callReturn s with mie := true }

/-- RTNMI: MIE becomes MIE_SAVED (R435). -/
def runRtnmi (s : State) : Exec := .next { callReturn s with mie := s.mieSaved }

/-! ## One meaning per row of the opcode table -/

/-- RT -/
def execRt (s : State) : Exec := runRt s
/-- RTI -/
def execRti (s : State) : Exec := runRti s
/-- RTNMI -/
def execRtnmi (s : State) : Exec := runRtnmi s
/-- LJMP adr16 -/
def execLjmp (w : Word) (s : State) : Exec := runLjmp w s
/-- LCAL adr16 -/
def execLcal (w : Word) (s : State) : Exec := runLcal w s
/-- JMP PC+A -/
def execJmpPcA (s : State) : Exec := runJmpPcA s
/-- JMP cadr12 -/
def execJmp (a : BitVec 12) (s : State) : Exec := runJmp a s
/-- CAL cadr12 -/
def execCal (a : BitVec 12) (s : State) : Exec := runCal a s
/-- BNG radr8 -/
def execBng (d : Byte) (s : State) : Exec := runBranch .bng d s
/-- SJMP radr8 -/
def execSjmp (d : Byte) (s : State) : Exec := runSjmp d s
/-- BC radr8 -/
def execBc (d : Byte) (s : State) : Exec := runBranch .bc d s
/-- BLT radr8 -/
def execBlt (d : Byte) (s : State) : Exec := runBranch .blt d s
/-- BNC radr8 -/
def execBnc (d : Byte) (s : State) : Exec := runBranch .bnc d s
/-- BGE radr8 -/
def execBge (d : Byte) (s : State) : Exec := runBranch .bge d s
/-- BZ radr8 -/
def execBz (d : Byte) (s : State) : Exec := runBranch .bz d s
/-- BEQ radr8 -/
def execBeq (d : Byte) (s : State) : Exec := runBranch .beq d s
/-- BNZ radr8 -/
def execBnz (d : Byte) (s : State) : Exec := runBranch .bnz d s
/-- BNE radr8 -/
def execBne (d : Byte) (s : State) : Exec := runBranch .bne d s
/-- BLE radr8 -/
def execBle (d : Byte) (s : State) : Exec := runBranch .ble d s
/-- BGT radr8 -/
def execBgt (d : Byte) (s : State) : Exec := runBranch .bgt d s

end Sys2Proof.Machine
end

