-- ==== Sys2Proof/Machine/CompareLogical.lean ====
section
/-! DEFINITION. The meanings of comparisons and logical operations (43_compare_logical.md). A meaning is the operation of its rule on the operand form its name gives. -/

namespace Sys2Proof.Machine

/-- CMP obj, A (R300). -/
def runCmp (o : Obj) (s : State) : Exec := onRead o (fun i => cmpOut i.a i) s

/-- CMP obj, #i4 (R301). -/
def runCmpImm (o : Obj) (y : Nibble) (s : State) : Exec := onRead o (cmpOut y) s

/-- AND obj, A (R302). -/
def runAnd (o : Obj) (s : State) : Exec := onRead o (fun i => andOut i.a i) s

/-- AND obj, #i4 (R303). -/
def runAndImm (o : Obj) (y : Nibble) (s : State) : Exec := onRead o (andOut y) s

/-- OR obj, A (R304). -/
def runOr (o : Obj) (s : State) : Exec := onRead o (fun i => orOut i.a i) s

/-- OR obj, #i4 (R305). -/
def runOrImm (o : Obj) (y : Nibble) (s : State) : Exec := onRead o (orOut y) s

/-- XOR obj, A (R306). -/
def runXor (o : Obj) (s : State) : Exec := onRead o (fun i => xorOut i.a i) s

/-- XOR obj, #i4 (R307). -/
def runXorImm (o : Obj) (y : Nibble) (s : State) : Exec := onRead o (xorOut y) s

/-! ## One meaning per row of the opcode table -/

/-- CMP sfr, A -/
def execCmpSfrA (r : Byte) (s : State) : Exec := runCmp (.sfr r) s
/-- CMP ¥cur, A -/
def execCmpCurA (r : Byte) (s : State) : Exec := runCmp (.cur r) s
/-- CMP [HL], A -/
def execCmpHlA (s : State) : Exec := runCmp (.ind .hl) s
/-- CMP [XY], A -/
def execCmpXyA (s : State) : Exec := runCmp (.ind .xy) s
/-- CMP E:[HL], A -/
def execCmpEHlA (s : State) : Exec := runCmp (.ind .eHl) s
/-- CMP E:[XY], A -/
def execCmpEXyA (s : State) : Exec := runCmp (.ind .eXy) s
/-- CMP [HL+], A -/
def execCmpHlIncA (s : State) : Exec := runCmp (.ind .hlInc) s
/-- CMP [XY+], A -/
def execCmpXyIncA (s : State) : Exec := runCmp (.ind .xyInc) s
/-- CMP E:[HL+], A -/
def execCmpEHlIncA (s : State) : Exec := runCmp (.ind .eHlInc) s
/-- CMP E:[XY+], A -/
def execCmpEXyIncA (s : State) : Exec := runCmp (.ind .eXyInc) s
/-- AND sfr, A -/
def execAndSfrA (r : Byte) (s : State) : Exec := runAnd (.sfr r) s
/-- AND ¥cur, A -/
def execAndCurA (r : Byte) (s : State) : Exec := runAnd (.cur r) s
/-- AND [HL], A -/
def execAndHlA (s : State) : Exec := runAnd (.ind .hl) s
/-- AND [XY], A -/
def execAndXyA (s : State) : Exec := runAnd (.ind .xy) s
/-- AND E:[HL], A -/
def execAndEHlA (s : State) : Exec := runAnd (.ind .eHl) s
/-- AND E:[XY], A -/
def execAndEXyA (s : State) : Exec := runAnd (.ind .eXy) s
/-- AND [HL+], A -/
def execAndHlIncA (s : State) : Exec := runAnd (.ind .hlInc) s
/-- AND [XY+], A -/
def execAndXyIncA (s : State) : Exec := runAnd (.ind .xyInc) s
/-- AND E:[HL+], A -/
def execAndEHlIncA (s : State) : Exec := runAnd (.ind .eHlInc) s
/-- AND E:[XY+], A -/
def execAndEXyIncA (s : State) : Exec := runAnd (.ind .eXyInc) s
/-- OR sfr, A -/
def execOrSfrA (r : Byte) (s : State) : Exec := runOr (.sfr r) s
/-- OR ¥cur, A -/
def execOrCurA (r : Byte) (s : State) : Exec := runOr (.cur r) s
/-- OR [HL], A -/
def execOrHlA (s : State) : Exec := runOr (.ind .hl) s
/-- OR [XY], A -/
def execOrXyA (s : State) : Exec := runOr (.ind .xy) s
/-- OR E:[HL], A -/
def execOrEHlA (s : State) : Exec := runOr (.ind .eHl) s
/-- OR E:[XY], A -/
def execOrEXyA (s : State) : Exec := runOr (.ind .eXy) s
/-- OR [HL+], A -/
def execOrHlIncA (s : State) : Exec := runOr (.ind .hlInc) s
/-- OR [XY+], A -/
def execOrXyIncA (s : State) : Exec := runOr (.ind .xyInc) s
/-- OR E:[HL+], A -/
def execOrEHlIncA (s : State) : Exec := runOr (.ind .eHlInc) s
/-- OR E:[XY+], A -/
def execOrEXyIncA (s : State) : Exec := runOr (.ind .eXyInc) s
/-- XOR sfr, A -/
def execXorSfrA (r : Byte) (s : State) : Exec := runXor (.sfr r) s
/-- XOR ¥cur, A -/
def execXorCurA (r : Byte) (s : State) : Exec := runXor (.cur r) s
/-- XOR [HL], A -/
def execXorHlA (s : State) : Exec := runXor (.ind .hl) s
/-- XOR [XY], A -/
def execXorXyA (s : State) : Exec := runXor (.ind .xy) s
/-- XOR E:[HL], A -/
def execXorEHlA (s : State) : Exec := runXor (.ind .eHl) s
/-- XOR E:[XY], A -/
def execXorEXyA (s : State) : Exec := runXor (.ind .eXy) s
/-- XOR [HL+], A -/
def execXorHlIncA (s : State) : Exec := runXor (.ind .hlInc) s
/-- XOR [XY+], A -/
def execXorXyIncA (s : State) : Exec := runXor (.ind .xyInc) s
/-- XOR E:[HL+], A -/
def execXorEHlIncA (s : State) : Exec := runXor (.ind .eHlInc) s
/-- XOR E:[XY+], A -/
def execXorEXyIncA (s : State) : Exec := runXor (.ind .eXyInc) s
/-- CMP ¥cur, #i4 -/
def execCmpCurI (r : Byte) (i : Nibble) (s : State) : Exec := runCmpImm (.cur r) i s
/-- CMP [HL], #i4 -/
def execCmpHlI (i : Nibble) (s : State) : Exec := runCmpImm (.ind .hl) i s
/-- CMP [XY], #i4 -/
def execCmpXyI (i : Nibble) (s : State) : Exec := runCmpImm (.ind .xy) i s
/-- CMP E:[HL], #i4 -/
def execCmpEHlI (i : Nibble) (s : State) : Exec := runCmpImm (.ind .eHl) i s
/-- CMP E:[XY], #i4 -/
def execCmpEXyI (i : Nibble) (s : State) : Exec := runCmpImm (.ind .eXy) i s
/-- CMP [HL+], #i4 -/
def execCmpHlIncI (i : Nibble) (s : State) : Exec := runCmpImm (.ind .hlInc) i s
/-- CMP [XY+], #i4 -/
def execCmpXyIncI (i : Nibble) (s : State) : Exec := runCmpImm (.ind .xyInc) i s
/-- CMP E:[HL+], #i4 -/
def execCmpEHlIncI (i : Nibble) (s : State) : Exec := runCmpImm (.ind .eHlInc) i s
/-- CMP E:[XY+], #i4 -/
def execCmpEXyIncI (i : Nibble) (s : State) : Exec := runCmpImm (.ind .eXyInc) i s
/-- AND ¥cur, #i4 -/
def execAndCurI (r : Byte) (i : Nibble) (s : State) : Exec := runAndImm (.cur r) i s
/-- AND [HL], #i4 -/
def execAndHlI (i : Nibble) (s : State) : Exec := runAndImm (.ind .hl) i s
/-- AND [XY], #i4 -/
def execAndXyI (i : Nibble) (s : State) : Exec := runAndImm (.ind .xy) i s
/-- AND E:[HL], #i4 -/
def execAndEHlI (i : Nibble) (s : State) : Exec := runAndImm (.ind .eHl) i s
/-- AND E:[XY], #i4 -/
def execAndEXyI (i : Nibble) (s : State) : Exec := runAndImm (.ind .eXy) i s
/-- AND [HL+], #i4 -/
def execAndHlIncI (i : Nibble) (s : State) : Exec := runAndImm (.ind .hlInc) i s
/-- AND [XY+], #i4 -/
def execAndXyIncI (i : Nibble) (s : State) : Exec := runAndImm (.ind .xyInc) i s
/-- AND E:[HL+], #i4 -/
def execAndEHlIncI (i : Nibble) (s : State) : Exec := runAndImm (.ind .eHlInc) i s
/-- AND E:[XY+], #i4 -/
def execAndEXyIncI (i : Nibble) (s : State) : Exec := runAndImm (.ind .eXyInc) i s
/-- OR ¥cur, #i4 -/
def execOrCurI (r : Byte) (i : Nibble) (s : State) : Exec := runOrImm (.cur r) i s
/-- OR [HL], #i4 -/
def execOrHlI (i : Nibble) (s : State) : Exec := runOrImm (.ind .hl) i s
/-- OR [XY], #i4 -/
def execOrXyI (i : Nibble) (s : State) : Exec := runOrImm (.ind .xy) i s
/-- OR E:[HL], #i4 -/
def execOrEHlI (i : Nibble) (s : State) : Exec := runOrImm (.ind .eHl) i s
/-- OR E:[XY], #i4 -/
def execOrEXyI (i : Nibble) (s : State) : Exec := runOrImm (.ind .eXy) i s
/-- OR [HL+], #i4 -/
def execOrHlIncI (i : Nibble) (s : State) : Exec := runOrImm (.ind .hlInc) i s
/-- OR [XY+], #i4 -/
def execOrXyIncI (i : Nibble) (s : State) : Exec := runOrImm (.ind .xyInc) i s
/-- OR E:[HL+], #i4 -/
def execOrEHlIncI (i : Nibble) (s : State) : Exec := runOrImm (.ind .eHlInc) i s
/-- OR E:[XY+], #i4 -/
def execOrEXyIncI (i : Nibble) (s : State) : Exec := runOrImm (.ind .eXyInc) i s
/-- XOR ¥cur, #i4 -/
def execXorCurI (r : Byte) (i : Nibble) (s : State) : Exec := runXorImm (.cur r) i s
/-- XOR [HL], #i4 -/
def execXorHlI (i : Nibble) (s : State) : Exec := runXorImm (.ind .hl) i s
/-- XOR [XY], #i4 -/
def execXorXyI (i : Nibble) (s : State) : Exec := runXorImm (.ind .xy) i s
/-- XOR E:[HL], #i4 -/
def execXorEHlI (i : Nibble) (s : State) : Exec := runXorImm (.ind .eHl) i s
/-- XOR E:[XY], #i4 -/
def execXorEXyI (i : Nibble) (s : State) : Exec := runXorImm (.ind .eXy) i s
/-- XOR [HL+], #i4 -/
def execXorHlIncI (i : Nibble) (s : State) : Exec := runXorImm (.ind .hlInc) i s
/-- XOR [XY+], #i4 -/
def execXorXyIncI (i : Nibble) (s : State) : Exec := runXorImm (.ind .xyInc) i s
/-- XOR E:[HL+], #i4 -/
def execXorEHlIncI (i : Nibble) (s : State) : Exec := runXorImm (.ind .eHlInc) i s
/-- XOR E:[XY+], #i4 -/
def execXorEXyIncI (i : Nibble) (s : State) : Exec := runXorImm (.ind .eXyInc) i s

end Sys2Proof.Machine
end

