-- ==== Sys2Proof/Machine/Control.lean ====
section
/-! DEFINITION. The meanings of NOP, HALT, EI, DI, MSA and MOV reg, #i4 (48_control.md). A meaning is the operation of its rule on the operand form its name gives. -/

namespace Sys2Proof.Machine

/-- NOP (R460). -/
def runNop (s : State) : Exec := .next (advance 1 s)

/-- HALT: the next word must be that of NOP (R461; D42). -/
def runHalt (s : State) : Exec :=
  match pmRead s (s.pc + 1) with
  | none => .fault .programAddressNotImplemented
  | some w =>
    if w = 0 then .next (advance 1 { s with halted := true })
    else .refused .haltNotFollowedByNop

/-- EI (R462). -/
def runEi (s : State) : Exec := .next (advance 1 { s with mie := true })

/-- DI (R463). -/
def runDi (s : State) : Exec := .next (advance 1 { s with mie := false })

/-- MSA cadr16: the melody circuit is told the address (R464; D40). -/
def runMsa (w : Word) (s : State) : Exec :=
  if s.device.melody then .next (advance 2 { s with trace := .melodyStart w :: s.trace })
  else .refused .melodyCircuitAbsent

/-- MOV reg, #i4 (R465): no flag is written. -/
def runMovReg (r : Reg) (i : Nibble) (s : State) : Exec := .next (advance 1 (setReg r i s))

/-! ## One meaning per row of the opcode table -/

/-- NOP -/
def execNop (s : State) : Exec := runNop s
/-- HALT -/
def execHalt (s : State) : Exec := runHalt s
/-- EI -/
def execEi (s : State) : Exec := runEi s
/-- DI -/
def execDi (s : State) : Exec := runDi s
/-- MSA cadr16 -/
def execMsa (w : Word) (s : State) : Exec := runMsa w s
/-- MOV EBR, #i4 -/
def execMovEbrI (i : Nibble) (s : State) : Exec := runMovReg .ebr i s
/-- MOV CBR, #i4 -/
def execMovCbrI (i : Nibble) (s : State) : Exec := runMovReg .cbr i s
/-- MOV Y, #i4 -/
def execMovYRegI (i : Nibble) (s : State) : Exec := runMovReg .y i s
/-- MOV X, #i4 -/
def execMovXRegI (i : Nibble) (s : State) : Exec := runMovReg .x i s
/-- MOV L, #i4 -/
def execMovLRegI (i : Nibble) (s : State) : Exec := runMovReg .l i s
/-- MOV H, #i4 -/
def execMovHRegI (i : Nibble) (s : State) : Exec := runMovReg .h i s
/-- MOV RA0, #i4 -/
def execMovRa0I (i : Nibble) (s : State) : Exec := runMovReg .ra0 i s
/-- MOV RA1, #i4 -/
def execMovRa1I (i : Nibble) (s : State) : Exec := runMovReg .ra1 i s
/-- MOV RA2, #i4 -/
def execMovRa2I (i : Nibble) (s : State) : Exec := runMovReg .ra2 i s
/-- MOV RA3, #i4 -/
def execMovRa3I (i : Nibble) (s : State) : Exec := runMovReg .ra3 i s

end Sys2Proof.Machine
end

