-- ==== Sys2Proof/Machine/MaskBit.lean ====
section
/-! DEFINITION. The meanings of mask and bit operations (44_mask_bit.md). A meaning is the operation of its rule on the operand form its name gives. -/

namespace Sys2Proof.Machine

/-- MTST obj, A (R330). -/
def runMtst (o : Obj) (s : State) : Exec := onRead o (fun i => mtstOut i.a i) s

/-- MTST obj, #m (R331). -/
def runMtstImm (o : Obj) (m : Nibble) (s : State) : Exec := onRead o (mtstOut m) s

/-- MCLR obj, #m: a 1 keeps, a 0 clears (R332). -/
def runMclr (o : Obj) (m : Nibble) (s : State) : Exec := onRead o (andOut m) s

/-- MSET obj, #m (R333). -/
def runMset (o : Obj) (m : Nibble) (s : State) : Exec := onRead o (orOut m) s

/-- MNOT obj, #m (R334). -/
def runMnot (o : Obj) (m : Nibble) (s : State) : Exec := onRead o (xorOut m) s

/-- MMOV obj, #m, A.n (R335). -/
def runMmov (f : IndFixed) (m : Nibble) (n : Fin 4) (s : State) : Exec :=
  only300 s (onRead (.ind f.toInd) (mmovOut m n) s)

/-- BTST obj.n (R336). -/
def runBtst (o : Obj) (n : Fin 4) (s : State) : Exec := onRead o (btstOut n) s

/-- BCLR obj.n (R337). -/
def runBclr (o : Obj) (n : Fin 4) (s : State) : Exec := onRead o (bclrOut n) s

/-- BSET obj.n (R338). -/
def runBset (o : Obj) (n : Fin 4) (s : State) : Exec := onRead o (bsetOut n) s

/-- BNOT obj.n (R339). -/
def runBnot (o : Obj) (n : Fin 4) (s : State) : Exec := onRead o (bnotOut n) s

/-- BMOV obj.k, A.n (R340). -/
def runBmov (f : IndFixed) (k n : Fin 4) (s : State) : Exec :=
  only300 s (onRead (.ind f.toInd) (bmovOut k n) s)

/-! ## One meaning per row of the opcode table -/

/-- MTST sfr, A -/
def execMtstSfrA (r : Byte) (s : State) : Exec := runMtst (.sfr r) s
/-- MTST ¥cur, A -/
def execMtstCurA (r : Byte) (s : State) : Exec := runMtst (.cur r) s
/-- MTST [HL], A -/
def execMtstHlA (s : State) : Exec := runMtst (.ind .hl) s
/-- MTST [XY], A -/
def execMtstXyA (s : State) : Exec := runMtst (.ind .xy) s
/-- MTST E:[HL], A -/
def execMtstEHlA (s : State) : Exec := runMtst (.ind .eHl) s
/-- MTST E:[XY], A -/
def execMtstEXyA (s : State) : Exec := runMtst (.ind .eXy) s
/-- MTST [HL+], A -/
def execMtstHlIncA (s : State) : Exec := runMtst (.ind .hlInc) s
/-- MTST [XY+], A -/
def execMtstXyIncA (s : State) : Exec := runMtst (.ind .xyInc) s
/-- MTST E:[HL+], A -/
def execMtstEHlIncA (s : State) : Exec := runMtst (.ind .eHlInc) s
/-- MTST E:[XY+], A -/
def execMtstEXyIncA (s : State) : Exec := runMtst (.ind .eXyInc) s
/-- MTST ¥cur, #m -/
def execMtstCurM (r : Byte) (m : Nibble) (s : State) : Exec := runMtstImm (.cur r) m s
/-- MTST [HL], #m -/
def execMtstHlM (m : Nibble) (s : State) : Exec := runMtstImm (.ind .hl) m s
/-- MTST [XY], #m -/
def execMtstXyM (m : Nibble) (s : State) : Exec := runMtstImm (.ind .xy) m s
/-- MTST E:[HL], #m -/
def execMtstEHlM (m : Nibble) (s : State) : Exec := runMtstImm (.ind .eHl) m s
/-- MTST E:[XY], #m -/
def execMtstEXyM (m : Nibble) (s : State) : Exec := runMtstImm (.ind .eXy) m s
/-- MTST [HL+], #m -/
def execMtstHlIncM (m : Nibble) (s : State) : Exec := runMtstImm (.ind .hlInc) m s
/-- MTST [XY+], #m -/
def execMtstXyIncM (m : Nibble) (s : State) : Exec := runMtstImm (.ind .xyInc) m s
/-- MTST E:[HL+], #m -/
def execMtstEHlIncM (m : Nibble) (s : State) : Exec := runMtstImm (.ind .eHlInc) m s
/-- MTST E:[XY+], #m -/
def execMtstEXyIncM (m : Nibble) (s : State) : Exec := runMtstImm (.ind .eXyInc) m s
/-- MCLR ¥cur, #m -/
def execMclrCurM (r : Byte) (m : Nibble) (s : State) : Exec := runMclr (.cur r) m s
/-- MCLR [HL], #m -/
def execMclrHlM (m : Nibble) (s : State) : Exec := runMclr (.ind .hl) m s
/-- MCLR [XY], #m -/
def execMclrXyM (m : Nibble) (s : State) : Exec := runMclr (.ind .xy) m s
/-- MCLR E:[HL], #m -/
def execMclrEHlM (m : Nibble) (s : State) : Exec := runMclr (.ind .eHl) m s
/-- MCLR E:[XY], #m -/
def execMclrEXyM (m : Nibble) (s : State) : Exec := runMclr (.ind .eXy) m s
/-- MCLR [HL+], #m -/
def execMclrHlIncM (m : Nibble) (s : State) : Exec := runMclr (.ind .hlInc) m s
/-- MCLR [XY+], #m -/
def execMclrXyIncM (m : Nibble) (s : State) : Exec := runMclr (.ind .xyInc) m s
/-- MCLR E:[HL+], #m -/
def execMclrEHlIncM (m : Nibble) (s : State) : Exec := runMclr (.ind .eHlInc) m s
/-- MCLR E:[XY+], #m -/
def execMclrEXyIncM (m : Nibble) (s : State) : Exec := runMclr (.ind .eXyInc) m s
/-- MSET ¥cur, #m -/
def execMsetCurM (r : Byte) (m : Nibble) (s : State) : Exec := runMset (.cur r) m s
/-- MSET [HL], #m -/
def execMsetHlM (m : Nibble) (s : State) : Exec := runMset (.ind .hl) m s
/-- MSET [XY], #m -/
def execMsetXyM (m : Nibble) (s : State) : Exec := runMset (.ind .xy) m s
/-- MSET E:[HL], #m -/
def execMsetEHlM (m : Nibble) (s : State) : Exec := runMset (.ind .eHl) m s
/-- MSET E:[XY], #m -/
def execMsetEXyM (m : Nibble) (s : State) : Exec := runMset (.ind .eXy) m s
/-- MSET [HL+], #m -/
def execMsetHlIncM (m : Nibble) (s : State) : Exec := runMset (.ind .hlInc) m s
/-- MSET [XY+], #m -/
def execMsetXyIncM (m : Nibble) (s : State) : Exec := runMset (.ind .xyInc) m s
/-- MSET E:[HL+], #m -/
def execMsetEHlIncM (m : Nibble) (s : State) : Exec := runMset (.ind .eHlInc) m s
/-- MSET E:[XY+], #m -/
def execMsetEXyIncM (m : Nibble) (s : State) : Exec := runMset (.ind .eXyInc) m s
/-- MNOT ¥cur, #m -/
def execMnotCurM (r : Byte) (m : Nibble) (s : State) : Exec := runMnot (.cur r) m s
/-- MNOT [HL], #m -/
def execMnotHlM (m : Nibble) (s : State) : Exec := runMnot (.ind .hl) m s
/-- MNOT [XY], #m -/
def execMnotXyM (m : Nibble) (s : State) : Exec := runMnot (.ind .xy) m s
/-- MNOT E:[HL], #m -/
def execMnotEHlM (m : Nibble) (s : State) : Exec := runMnot (.ind .eHl) m s
/-- MNOT E:[XY], #m -/
def execMnotEXyM (m : Nibble) (s : State) : Exec := runMnot (.ind .eXy) m s
/-- MNOT [HL+], #m -/
def execMnotHlIncM (m : Nibble) (s : State) : Exec := runMnot (.ind .hlInc) m s
/-- MNOT [XY+], #m -/
def execMnotXyIncM (m : Nibble) (s : State) : Exec := runMnot (.ind .xyInc) m s
/-- MNOT E:[HL+], #m -/
def execMnotEHlIncM (m : Nibble) (s : State) : Exec := runMnot (.ind .eHlInc) m s
/-- MNOT E:[XY+], #m -/
def execMnotEXyIncM (m : Nibble) (s : State) : Exec := runMnot (.ind .eXyInc) m s
/-- BTST ¥cur.n -/
def execBtstCurN (r : Byte) (n : Fin 4) (s : State) : Exec := runBtst (.cur r) n s
/-- BTST [HL].n -/
def execBtstHlN (n : Fin 4) (s : State) : Exec := runBtst (.ind .hl) n s
/-- BTST [XY].n -/
def execBtstXyN (n : Fin 4) (s : State) : Exec := runBtst (.ind .xy) n s
/-- BTST E:[HL].n -/
def execBtstEHlN (n : Fin 4) (s : State) : Exec := runBtst (.ind .eHl) n s
/-- BTST E:[XY].n -/
def execBtstEXyN (n : Fin 4) (s : State) : Exec := runBtst (.ind .eXy) n s
/-- BTST [HL+].n -/
def execBtstHlIncN (n : Fin 4) (s : State) : Exec := runBtst (.ind .hlInc) n s
/-- BTST [XY+].n -/
def execBtstXyIncN (n : Fin 4) (s : State) : Exec := runBtst (.ind .xyInc) n s
/-- BTST E:[HL+].n -/
def execBtstEHlIncN (n : Fin 4) (s : State) : Exec := runBtst (.ind .eHlInc) n s
/-- BTST E:[XY+].n -/
def execBtstEXyIncN (n : Fin 4) (s : State) : Exec := runBtst (.ind .eXyInc) n s
/-- BCLR ¥cur.n -/
def execBclrCurN (r : Byte) (n : Fin 4) (s : State) : Exec := runBclr (.cur r) n s
/-- BCLR [HL].n -/
def execBclrHlN (n : Fin 4) (s : State) : Exec := runBclr (.ind .hl) n s
/-- BCLR [XY].n -/
def execBclrXyN (n : Fin 4) (s : State) : Exec := runBclr (.ind .xy) n s
/-- BCLR E:[HL].n -/
def execBclrEHlN (n : Fin 4) (s : State) : Exec := runBclr (.ind .eHl) n s
/-- BCLR E:[XY].n -/
def execBclrEXyN (n : Fin 4) (s : State) : Exec := runBclr (.ind .eXy) n s
/-- BCLR [HL+].n -/
def execBclrHlIncN (n : Fin 4) (s : State) : Exec := runBclr (.ind .hlInc) n s
/-- BCLR [XY+].n -/
def execBclrXyIncN (n : Fin 4) (s : State) : Exec := runBclr (.ind .xyInc) n s
/-- BCLR E:[HL+].n -/
def execBclrEHlIncN (n : Fin 4) (s : State) : Exec := runBclr (.ind .eHlInc) n s
/-- BCLR E:[XY+].n -/
def execBclrEXyIncN (n : Fin 4) (s : State) : Exec := runBclr (.ind .eXyInc) n s
/-- BSET ¥cur.n -/
def execBsetCurN (r : Byte) (n : Fin 4) (s : State) : Exec := runBset (.cur r) n s
/-- BSET [HL].n -/
def execBsetHlN (n : Fin 4) (s : State) : Exec := runBset (.ind .hl) n s
/-- BSET [XY].n -/
def execBsetXyN (n : Fin 4) (s : State) : Exec := runBset (.ind .xy) n s
/-- BSET E:[HL].n -/
def execBsetEHlN (n : Fin 4) (s : State) : Exec := runBset (.ind .eHl) n s
/-- BSET E:[XY].n -/
def execBsetEXyN (n : Fin 4) (s : State) : Exec := runBset (.ind .eXy) n s
/-- BSET [HL+].n -/
def execBsetHlIncN (n : Fin 4) (s : State) : Exec := runBset (.ind .hlInc) n s
/-- BSET [XY+].n -/
def execBsetXyIncN (n : Fin 4) (s : State) : Exec := runBset (.ind .xyInc) n s
/-- BSET E:[HL+].n -/
def execBsetEHlIncN (n : Fin 4) (s : State) : Exec := runBset (.ind .eHlInc) n s
/-- BSET E:[XY+].n -/
def execBsetEXyIncN (n : Fin 4) (s : State) : Exec := runBset (.ind .eXyInc) n s
/-- BNOT ¥cur.n -/
def execBnotCurN (r : Byte) (n : Fin 4) (s : State) : Exec := runBnot (.cur r) n s
/-- BNOT [HL].n -/
def execBnotHlN (n : Fin 4) (s : State) : Exec := runBnot (.ind .hl) n s
/-- BNOT [XY].n -/
def execBnotXyN (n : Fin 4) (s : State) : Exec := runBnot (.ind .xy) n s
/-- BNOT E:[HL].n -/
def execBnotEHlN (n : Fin 4) (s : State) : Exec := runBnot (.ind .eHl) n s
/-- BNOT E:[XY].n -/
def execBnotEXyN (n : Fin 4) (s : State) : Exec := runBnot (.ind .eXy) n s
/-- BNOT [HL+].n -/
def execBnotHlIncN (n : Fin 4) (s : State) : Exec := runBnot (.ind .hlInc) n s
/-- BNOT [XY+].n -/
def execBnotXyIncN (n : Fin 4) (s : State) : Exec := runBnot (.ind .xyInc) n s
/-- BNOT E:[HL+].n -/
def execBnotEHlIncN (n : Fin 4) (s : State) : Exec := runBnot (.ind .eHlInc) n s
/-- BNOT E:[XY+].n -/
def execBnotEXyIncN (n : Fin 4) (s : State) : Exec := runBnot (.ind .eXyInc) n s
/-- MMOV [HL], #m, A.n -/
def execMmovHl (m : Nibble) (n : Fin 4) (s : State) : Exec := runMmov .hl m n s
/-- MMOV [XY], #m, A.n -/
def execMmovXy (m : Nibble) (n : Fin 4) (s : State) : Exec := runMmov .xy m n s
/-- MMOV E:[HL], #m, A.n -/
def execMmovEHl (m : Nibble) (n : Fin 4) (s : State) : Exec := runMmov .eHl m n s
/-- MMOV E:[XY], #m, A.n -/
def execMmovEXy (m : Nibble) (n : Fin 4) (s : State) : Exec := runMmov .eXy m n s
/-- BMOV [HL].k, A.n -/
def execBmovHl (k : Fin 4) (n : Fin 4) (s : State) : Exec := runBmov .hl k n s
/-- BMOV [XY].k, A.n -/
def execBmovXy (k : Fin 4) (n : Fin 4) (s : State) : Exec := runBmov .xy k n s
/-- BMOV E:[HL].k, A.n -/
def execBmovEHl (k : Fin 4) (n : Fin 4) (s : State) : Exec := runBmov .eHl k n s
/-- BMOV E:[XY].k, A.n -/
def execBmovEXy (k : Fin 4) (n : Fin 4) (s : State) : Exec := runBmov .eXy k n s

end Sys2Proof.Machine
end

