-- ==== Sys2Proof/Machine/RomExt.lean ====
section
/-! DEFINITION. The meanings of the 8-bit transfers (45_rom_ext_transfer.md). A meaning is the operation of its rule on the operand form its name gives. -/

namespace Sys2Proof.Machine

/-- The byte MOVHB or MOVLB takes from a program memory word (20_memory.md R80 (b)). -/
def romByte (h : Half) (w : Word) : Byte :=
  match h with
  | .hb => w.extractLsb' 8 8
  | .lb => w.extractLsb' 0 8

/-- MOVHB and MOVLB (R370 to R373). -/
def runRom (h : Half) (m : Ind) (f : FarAddr) (s : State) : Exec :=
  if byteHazard m s then .refused .postincThroughPairOrBank
  else
    match pmRead s (farAddr f s) with
    | none => .fault .programAddressNotImplemented
    | some w => loadByte m f.words s (romByte h w) s

/-- MOVXB to data memory (R374, R375). -/
def runXmLoad (m : Ind) (f : FarAddr) (s : State) : Exec :=
  if byteHazard m s then .refused .postincThroughPairOrBank
  else loadByte m f.words s (xmValue s (farAddr f s)) (afterXmRead s (farAddr f s))

/-- MOVXB to external memory: the low nibble is read first (R376, R377). -/
def runXmStore (f : FarAddr) (m : Ind) (s : State) : Exec :=
  let ea := indAddr m s
  let ea1 := indAddr1 m s
  if byteHazard m s then .refused .postincThroughPairOrBank
  else if dmPresent s ea && dmPresent s ea1 then
    let lo := dmValue s ea
    let t := afterDmRead s ea
    let hi := dmValue t ea1
    let u := afterDmRead t ea1
    .next (advance f.words (indClose m 2 (xmStore u (farAddr f s) (hi ++ lo))))
  else .fault .dataAddressNotImplemented

/-! ## One meaning per row of the opcode table -/

/-- MOVHB [HL], [RA] -/
def execMovhbHlRa (s : State) : Exec := runRom .hb .hl .ra s
/-- MOVHB [XY], [RA] -/
def execMovhbXyRa (s : State) : Exec := runRom .hb .xy .ra s
/-- MOVHB E:[HL], [RA] -/
def execMovhbEHlRa (s : State) : Exec := runRom .hb .eHl .ra s
/-- MOVHB E:[XY], [RA] -/
def execMovhbEXyRa (s : State) : Exec := runRom .hb .eXy .ra s
/-- MOVHB [HL+], [RA] -/
def execMovhbHlIncRa (s : State) : Exec := runRom .hb .hlInc .ra s
/-- MOVHB [XY+], [RA] -/
def execMovhbXyIncRa (s : State) : Exec := runRom .hb .xyInc .ra s
/-- MOVHB E:[HL+], [RA] -/
def execMovhbEHlIncRa (s : State) : Exec := runRom .hb .eHlInc .ra s
/-- MOVHB E:[XY+], [RA] -/
def execMovhbEXyIncRa (s : State) : Exec := runRom .hb .eXyInc .ra s
/-- MOVHB [HL], cadr16 -/
def execMovhbHlCadr (w : Word) (s : State) : Exec := runRom .hb .hl (.adr w) s
/-- MOVHB [XY], cadr16 -/
def execMovhbXyCadr (w : Word) (s : State) : Exec := runRom .hb .xy (.adr w) s
/-- MOVHB E:[HL], cadr16 -/
def execMovhbEHlCadr (w : Word) (s : State) : Exec := runRom .hb .eHl (.adr w) s
/-- MOVHB E:[XY], cadr16 -/
def execMovhbEXyCadr (w : Word) (s : State) : Exec := runRom .hb .eXy (.adr w) s
/-- MOVHB [HL+], cadr16 -/
def execMovhbHlIncCadr (w : Word) (s : State) : Exec := runRom .hb .hlInc (.adr w) s
/-- MOVHB [XY+], cadr16 -/
def execMovhbXyIncCadr (w : Word) (s : State) : Exec := runRom .hb .xyInc (.adr w) s
/-- MOVHB E:[HL+], cadr16 -/
def execMovhbEHlIncCadr (w : Word) (s : State) : Exec := runRom .hb .eHlInc (.adr w) s
/-- MOVHB E:[XY+], cadr16 -/
def execMovhbEXyIncCadr (w : Word) (s : State) : Exec := runRom .hb .eXyInc (.adr w) s
/-- MOVLB [HL], [RA] -/
def execMovlbHlRa (s : State) : Exec := runRom .lb .hl .ra s
/-- MOVLB [XY], [RA] -/
def execMovlbXyRa (s : State) : Exec := runRom .lb .xy .ra s
/-- MOVLB E:[HL], [RA] -/
def execMovlbEHlRa (s : State) : Exec := runRom .lb .eHl .ra s
/-- MOVLB E:[XY], [RA] -/
def execMovlbEXyRa (s : State) : Exec := runRom .lb .eXy .ra s
/-- MOVLB [HL+], [RA] -/
def execMovlbHlIncRa (s : State) : Exec := runRom .lb .hlInc .ra s
/-- MOVLB [XY+], [RA] -/
def execMovlbXyIncRa (s : State) : Exec := runRom .lb .xyInc .ra s
/-- MOVLB E:[HL+], [RA] -/
def execMovlbEHlIncRa (s : State) : Exec := runRom .lb .eHlInc .ra s
/-- MOVLB E:[XY+], [RA] -/
def execMovlbEXyIncRa (s : State) : Exec := runRom .lb .eXyInc .ra s
/-- MOVLB [HL], cadr16 -/
def execMovlbHlCadr (w : Word) (s : State) : Exec := runRom .lb .hl (.adr w) s
/-- MOVLB [XY], cadr16 -/
def execMovlbXyCadr (w : Word) (s : State) : Exec := runRom .lb .xy (.adr w) s
/-- MOVLB E:[HL], cadr16 -/
def execMovlbEHlCadr (w : Word) (s : State) : Exec := runRom .lb .eHl (.adr w) s
/-- MOVLB E:[XY], cadr16 -/
def execMovlbEXyCadr (w : Word) (s : State) : Exec := runRom .lb .eXy (.adr w) s
/-- MOVLB [HL+], cadr16 -/
def execMovlbHlIncCadr (w : Word) (s : State) : Exec := runRom .lb .hlInc (.adr w) s
/-- MOVLB [XY+], cadr16 -/
def execMovlbXyIncCadr (w : Word) (s : State) : Exec := runRom .lb .xyInc (.adr w) s
/-- MOVLB E:[HL+], cadr16 -/
def execMovlbEHlIncCadr (w : Word) (s : State) : Exec := runRom .lb .eHlInc (.adr w) s
/-- MOVLB E:[XY+], cadr16 -/
def execMovlbEXyIncCadr (w : Word) (s : State) : Exec := runRom .lb .eXyInc (.adr w) s
/-- MOVXB [HL], [RA] -/
def execMovxbHlRa (s : State) : Exec := runXmLoad .hl .ra s
/-- MOVXB [XY], [RA] -/
def execMovxbXyRa (s : State) : Exec := runXmLoad .xy .ra s
/-- MOVXB E:[HL], [RA] -/
def execMovxbEHlRa (s : State) : Exec := runXmLoad .eHl .ra s
/-- MOVXB E:[XY], [RA] -/
def execMovxbEXyRa (s : State) : Exec := runXmLoad .eXy .ra s
/-- MOVXB [HL+], [RA] -/
def execMovxbHlIncRa (s : State) : Exec := runXmLoad .hlInc .ra s
/-- MOVXB [XY+], [RA] -/
def execMovxbXyIncRa (s : State) : Exec := runXmLoad .xyInc .ra s
/-- MOVXB E:[HL+], [RA] -/
def execMovxbEHlIncRa (s : State) : Exec := runXmLoad .eHlInc .ra s
/-- MOVXB E:[XY+], [RA] -/
def execMovxbEXyIncRa (s : State) : Exec := runXmLoad .eXyInc .ra s
/-- MOVXB [RA], [HL] -/
def execMovxbRaHl (s : State) : Exec := runXmStore .ra .hl s
/-- MOVXB [RA], [XY] -/
def execMovxbRaXy (s : State) : Exec := runXmStore .ra .xy s
/-- MOVXB [RA], E:[HL] -/
def execMovxbRaEHl (s : State) : Exec := runXmStore .ra .eHl s
/-- MOVXB [RA], E:[XY] -/
def execMovxbRaEXy (s : State) : Exec := runXmStore .ra .eXy s
/-- MOVXB [RA], [HL+] -/
def execMovxbRaHlInc (s : State) : Exec := runXmStore .ra .hlInc s
/-- MOVXB [RA], [XY+] -/
def execMovxbRaXyInc (s : State) : Exec := runXmStore .ra .xyInc s
/-- MOVXB [RA], E:[HL+] -/
def execMovxbRaEHlInc (s : State) : Exec := runXmStore .ra .eHlInc s
/-- MOVXB [RA], E:[XY+] -/
def execMovxbRaEXyInc (s : State) : Exec := runXmStore .ra .eXyInc s
/-- MOVXB [HL], xadr16 -/
def execMovxbHlXadr (w : Word) (s : State) : Exec := runXmLoad .hl (.adr w) s
/-- MOVXB [XY], xadr16 -/
def execMovxbXyXadr (w : Word) (s : State) : Exec := runXmLoad .xy (.adr w) s
/-- MOVXB E:[HL], xadr16 -/
def execMovxbEHlXadr (w : Word) (s : State) : Exec := runXmLoad .eHl (.adr w) s
/-- MOVXB E:[XY], xadr16 -/
def execMovxbEXyXadr (w : Word) (s : State) : Exec := runXmLoad .eXy (.adr w) s
/-- MOVXB [HL+], xadr16 -/
def execMovxbHlIncXadr (w : Word) (s : State) : Exec := runXmLoad .hlInc (.adr w) s
/-- MOVXB [XY+], xadr16 -/
def execMovxbXyIncXadr (w : Word) (s : State) : Exec := runXmLoad .xyInc (.adr w) s
/-- MOVXB E:[HL+], xadr16 -/
def execMovxbEHlIncXadr (w : Word) (s : State) : Exec := runXmLoad .eHlInc (.adr w) s
/-- MOVXB E:[XY+], xadr16 -/
def execMovxbEXyIncXadr (w : Word) (s : State) : Exec := runXmLoad .eXyInc (.adr w) s
/-- MOVXB xadr16, [HL] -/
def execMovxbXadrHl (w : Word) (s : State) : Exec := runXmStore (.adr w) .hl s
/-- MOVXB xadr16, [XY] -/
def execMovxbXadrXy (w : Word) (s : State) : Exec := runXmStore (.adr w) .xy s
/-- MOVXB xadr16, E:[HL] -/
def execMovxbXadrEHl (w : Word) (s : State) : Exec := runXmStore (.adr w) .eHl s
/-- MOVXB xadr16, E:[XY] -/
def execMovxbXadrEXy (w : Word) (s : State) : Exec := runXmStore (.adr w) .eXy s
/-- MOVXB xadr16, [HL+] -/
def execMovxbXadrHlInc (w : Word) (s : State) : Exec := runXmStore (.adr w) .hlInc s
/-- MOVXB xadr16, [XY+] -/
def execMovxbXadrXyInc (w : Word) (s : State) : Exec := runXmStore (.adr w) .xyInc s
/-- MOVXB xadr16, E:[HL+] -/
def execMovxbXadrEHlInc (w : Word) (s : State) : Exec := runXmStore (.adr w) .eHlInc s
/-- MOVXB xadr16, E:[XY+] -/
def execMovxbXadrEXyInc (w : Word) (s : State) : Exec := runXmStore (.adr w) .eXyInc s

end Sys2Proof.Machine
end

