-- ==== Sys2Proof/Machine/RotateIncDec.lean ====
section
/-! DEFINITION. The meanings of rotates, increments and decrements (41_rotate_incdec.md). A meaning is the operation of its rule on the operand form its name gives. -/

namespace Sys2Proof.Machine

/-- ROL obj (R230). -/
def runRol (o : Obj) (s : State) : Exec := onRead o rolOut s

/-- ROR obj (R231). -/
def runRor (o : Obj) (s : State) : Exec := onRead o rorOut s

/-- INC obj (R232). -/
def runInc (o : Obj) (s : State) : Exec := onRead o incOut s

/-- DEC obj (R233). -/
def runDec (o : Obj) (s : State) : Exec := onRead o decOut s

/-- INCB HL and INCB XY (R234). -/
def runIncb (p : Pair) (s : State) : Exec := .next (advance 1 (postInc p 1 s))

/-- INCW RA (R235). -/
def runIncw (s : State) : Exec :=
  let t := raValue s + 1
  .next (advance 1 { setRa t s with g := decide (t = 0) })

/-! ## One meaning per row of the opcode table -/

/-- INC sfr -/
def execIncSfr (r : Byte) (s : State) : Exec := runInc (.sfr r) s
/-- INC ¥cur -/
def execIncCur (r : Byte) (s : State) : Exec := runInc (.cur r) s
/-- INC [HL] -/
def execIncHl (s : State) : Exec := runInc (.ind .hl) s
/-- INC [XY] -/
def execIncXy (s : State) : Exec := runInc (.ind .xy) s
/-- INC E:[HL] -/
def execIncEHl (s : State) : Exec := runInc (.ind .eHl) s
/-- INC E:[XY] -/
def execIncEXy (s : State) : Exec := runInc (.ind .eXy) s
/-- INC [HL+] -/
def execIncHlInc (s : State) : Exec := runInc (.ind .hlInc) s
/-- INC [XY+] -/
def execIncXyInc (s : State) : Exec := runInc (.ind .xyInc) s
/-- INC E:[HL+] -/
def execIncEHlInc (s : State) : Exec := runInc (.ind .eHlInc) s
/-- INC E:[XY+] -/
def execIncEXyInc (s : State) : Exec := runInc (.ind .eXyInc) s
/-- DEC sfr -/
def execDecSfr (r : Byte) (s : State) : Exec := runDec (.sfr r) s
/-- DEC ¥cur -/
def execDecCur (r : Byte) (s : State) : Exec := runDec (.cur r) s
/-- DEC [HL] -/
def execDecHl (s : State) : Exec := runDec (.ind .hl) s
/-- DEC [XY] -/
def execDecXy (s : State) : Exec := runDec (.ind .xy) s
/-- DEC E:[HL] -/
def execDecEHl (s : State) : Exec := runDec (.ind .eHl) s
/-- DEC E:[XY] -/
def execDecEXy (s : State) : Exec := runDec (.ind .eXy) s
/-- DEC [HL+] -/
def execDecHlInc (s : State) : Exec := runDec (.ind .hlInc) s
/-- DEC [XY+] -/
def execDecXyInc (s : State) : Exec := runDec (.ind .xyInc) s
/-- DEC E:[HL+] -/
def execDecEHlInc (s : State) : Exec := runDec (.ind .eHlInc) s
/-- DEC E:[XY+] -/
def execDecEXyInc (s : State) : Exec := runDec (.ind .eXyInc) s
/-- ROL sfr -/
def execRolSfr (r : Byte) (s : State) : Exec := runRol (.sfr r) s
/-- ROL ¥cur -/
def execRolCur (r : Byte) (s : State) : Exec := runRol (.cur r) s
/-- ROL [HL] -/
def execRolHl (s : State) : Exec := runRol (.ind .hl) s
/-- ROL [XY] -/
def execRolXy (s : State) : Exec := runRol (.ind .xy) s
/-- ROL E:[HL] -/
def execRolEHl (s : State) : Exec := runRol (.ind .eHl) s
/-- ROL E:[XY] -/
def execRolEXy (s : State) : Exec := runRol (.ind .eXy) s
/-- ROL [HL+] -/
def execRolHlInc (s : State) : Exec := runRol (.ind .hlInc) s
/-- ROL [XY+] -/
def execRolXyInc (s : State) : Exec := runRol (.ind .xyInc) s
/-- ROL E:[HL+] -/
def execRolEHlInc (s : State) : Exec := runRol (.ind .eHlInc) s
/-- ROL E:[XY+] -/
def execRolEXyInc (s : State) : Exec := runRol (.ind .eXyInc) s
/-- ROR sfr -/
def execRorSfr (r : Byte) (s : State) : Exec := runRor (.sfr r) s
/-- ROR ¥cur -/
def execRorCur (r : Byte) (s : State) : Exec := runRor (.cur r) s
/-- ROR [HL] -/
def execRorHl (s : State) : Exec := runRor (.ind .hl) s
/-- ROR [XY] -/
def execRorXy (s : State) : Exec := runRor (.ind .xy) s
/-- ROR E:[HL] -/
def execRorEHl (s : State) : Exec := runRor (.ind .eHl) s
/-- ROR E:[XY] -/
def execRorEXy (s : State) : Exec := runRor (.ind .eXy) s
/-- ROR [HL+] -/
def execRorHlInc (s : State) : Exec := runRor (.ind .hlInc) s
/-- ROR [XY+] -/
def execRorXyInc (s : State) : Exec := runRor (.ind .xyInc) s
/-- ROR E:[HL+] -/
def execRorEHlInc (s : State) : Exec := runRor (.ind .eHlInc) s
/-- ROR E:[XY+] -/
def execRorEXyInc (s : State) : Exec := runRor (.ind .eXyInc) s
/-- INCB HL -/
def execIncbHl (s : State) : Exec := runIncb .hl s
/-- INCB XY -/
def execIncbXy (s : State) : Exec := runIncb .xy s
/-- INCW RA -/
def execIncwRa (s : State) : Exec := runIncw s

end Sys2Proof.Machine
end

