-- ==== Sys2Proof/Machine/StackFlag.lean ====
section
/-! DEFINITION. The meanings of the register stack and the flags (46_stack_flag.md). A meaning is the operation of its rule on the operand form its name gives. -/

namespace Sys2Proof.Machine

/-- PUSH HL (R400) and PUSH XY (R401). -/
def runPush (p : Pair) (s : State) : Exec :=
  match p with
  | .hl => .next (advance 1 (regPush (flagPack s.z s.c s.g ++ s.a ++ s.h ++ s.l) s))
  | .xy => .next (advance 1 (regPush (s.ebr ++ s.cbr ++ s.x ++ s.y) s))

/-- `{FLAG, A, HL}` from a register stack word (R402). -/
def restoreHl (w : Word) (s : State) : State :=
  let f := flagUnpack (w.extractLsb' 12 4)
  { s with
    z := f.1
    c := f.2.1
    g := f.2.2
    a := w.extractLsb' 8 4
    h := w.extractLsb' 4 4
    l := w.extractLsb' 0 4 }

/-- `{EBR, CBR, XY}` from a register stack word (R403). -/
def restoreXy (w : Word) (s : State) : State :=
  { s with
    ebr := w.extractLsb' 12 4
    cbr := w.extractLsb' 8 4
    x := w.extractLsb' 4 4
    y := w.extractLsb' 0 4 }

/-- POP HL (R402) and POP XY (R403): RSP counts down first (D10). -/
def runPop (p : Pair) (s : State) : Exec :=
  let w := regSlot s (s.rsp - 1)
  let t := { s with rsp := s.rsp - 1 }
  match p with
  | .hl => .next (advance 1 (restoreHl w t))
  | .xy => .next (advance 1 (restoreXy w t))

/-- Write the flags FCLR and FSET name. -/
def setFlags (f : FlagSel) (v : Bool) (s : State) : State :=
  match f with
  | .c => { s with c := v }
  | .z => { s with z := v }
  | .g => { s with g := v }
  | .flag => { s with z := v, c := v, g := v }

/-- FCLR C, FCLR Z and FCLR G (R404 to R406); FCLR FLAG, which only the nX-4/300 core has (R407). -/
def runFclr (f : FlagSel) (s : State) : Exec :=
  match f with
  | .c => .next (advance 1 (setFlags .c false s))
  | .z => .next (advance 1 (setFlags .z false s))
  | .g => .next (advance 1 (setFlags .g false s))
  | .flag => only300 s (.next (advance 1 (setFlags .flag false s)))

/-- FSET C, FSET Z and FSET G (R408 to R410); FSET FLAG, which only the nX-4/300 core has (R411). -/
def runFset (f : FlagSel) (s : State) : Exec :=
  match f with
  | .c => .next (advance 1 (setFlags .c true s))
  | .z => .next (advance 1 (setFlags .z true s))
  | .g => .next (advance 1 (setFlags .g true s))
  | .flag => only300 s (.next (advance 1 (setFlags .flag true s)))

/-! ## One meaning per row of the opcode table -/

/-- FCLR G -/
def execFclrG (s : State) : Exec := runFclr .g s
/-- FCLR C -/
def execFclrC (s : State) : Exec := runFclr .c s
/-- FCLR Z -/
def execFclrZ (s : State) : Exec := runFclr .z s
/-- FCLR FLAG -/
def execFclrFlag (s : State) : Exec := runFclr .flag s
/-- FSET G -/
def execFsetG (s : State) : Exec := runFset .g s
/-- FSET C -/
def execFsetC (s : State) : Exec := runFset .c s
/-- FSET Z -/
def execFsetZ (s : State) : Exec := runFset .z s
/-- FSET FLAG -/
def execFsetFlag (s : State) : Exec := runFset .flag s
/-- PUSH HL -/
def execPushHl (s : State) : Exec := runPush .hl s
/-- PUSH XY -/
def execPushXy (s : State) : Exec := runPush .xy s
/-- POP HL -/
def execPopHl (s : State) : Exec := runPop .hl s
/-- POP XY -/
def execPopXy (s : State) : Exec := runPop .xy s

end Sys2Proof.Machine
end

