-- ==== Sys2Proof/Machine/Transfer.lean ====
section
/-! DEFINITION. The meanings of MOV and XCH with a data memory operand (40_transfer.md). A meaning is the operation of its rule on the operand form its name gives. -/

namespace Sys2Proof.Machine

/-- MOV A, obj (R200). -/
def runMovToA (o : Obj) (s : State) : Exec := onRead o movToAOut s

/-- MOV A, #i4 (R201). -/
def runMovAImm (i : Nibble) (s : State) : Exec := .next (advance 1 { s with a := i, z := decide (i = 0) })

/-- MOV obj, A (R202). -/
def runMovFromA (o : Obj) (s : State) : Exec := onStore o movFromAOut s

/-- MOV obj, #i4 (R203). -/
def runMovImm (o : Obj) (i : Nibble) (s : State) : Exec := onStore o (movImmOut i) s

/-- XCH A, obj (R204). -/
def runXch (o : Obj) (s : State) : Exec := onRead o xchOut s

/-! ## One meaning per row of the opcode table -/

/-- XCH A, sfr -/
def execXchASfr (r : Byte) (s : State) : Exec := runXch (.sfr r) s
/-- XCH A, ¥cur -/
def execXchACur (r : Byte) (s : State) : Exec := runXch (.cur r) s
/-- XCH A, [HL] -/
def execXchAHl (s : State) : Exec := runXch (.ind .hl) s
/-- XCH A, [XY] -/
def execXchAXy (s : State) : Exec := runXch (.ind .xy) s
/-- XCH A, E:[HL] -/
def execXchAEHl (s : State) : Exec := runXch (.ind .eHl) s
/-- XCH A, E:[XY] -/
def execXchAEXy (s : State) : Exec := runXch (.ind .eXy) s
/-- XCH A, [HL+] -/
def execXchAHlInc (s : State) : Exec := runXch (.ind .hlInc) s
/-- XCH A, [XY+] -/
def execXchAXyInc (s : State) : Exec := runXch (.ind .xyInc) s
/-- XCH A, E:[HL+] -/
def execXchAEHlInc (s : State) : Exec := runXch (.ind .eHlInc) s
/-- XCH A, E:[XY+] -/
def execXchAEXyInc (s : State) : Exec := runXch (.ind .eXyInc) s
/-- MOV A, direct -/
def execMovADirect (r : BitVec 12) (s : State) : Exec := runMovToA (.direct r) s
/-- MOV direct, A -/
def execMovDirectA (r : BitVec 12) (s : State) : Exec := runMovFromA (.direct r) s
/-- MOV A, [HL] -/
def execMovAHl (s : State) : Exec := runMovToA (.ind .hl) s
/-- MOV [HL], A -/
def execMovHlA (s : State) : Exec := runMovFromA (.ind .hl) s
/-- MOV A, [XY] -/
def execMovAXy (s : State) : Exec := runMovToA (.ind .xy) s
/-- MOV [XY], A -/
def execMovXyA (s : State) : Exec := runMovFromA (.ind .xy) s
/-- MOV A, E:[HL] -/
def execMovAEHl (s : State) : Exec := runMovToA (.ind .eHl) s
/-- MOV E:[HL], A -/
def execMovEHlA (s : State) : Exec := runMovFromA (.ind .eHl) s
/-- MOV A, E:[XY] -/
def execMovAEXy (s : State) : Exec := runMovToA (.ind .eXy) s
/-- MOV E:[XY], A -/
def execMovEXyA (s : State) : Exec := runMovFromA (.ind .eXy) s
/-- MOV A, [HL+] -/
def execMovAHlInc (s : State) : Exec := runMovToA (.ind .hlInc) s
/-- MOV [HL+], A -/
def execMovHlIncA (s : State) : Exec := runMovFromA (.ind .hlInc) s
/-- MOV A, [XY+] -/
def execMovAXyInc (s : State) : Exec := runMovToA (.ind .xyInc) s
/-- MOV [XY+], A -/
def execMovXyIncA (s : State) : Exec := runMovFromA (.ind .xyInc) s
/-- MOV A, E:[HL+] -/
def execMovAEHlInc (s : State) : Exec := runMovToA (.ind .eHlInc) s
/-- MOV E:[HL+], A -/
def execMovEHlIncA (s : State) : Exec := runMovFromA (.ind .eHlInc) s
/-- MOV A, E:[XY+] -/
def execMovAEXyInc (s : State) : Exec := runMovToA (.ind .eXyInc) s
/-- MOV E:[XY+], A -/
def execMovEXyIncA (s : State) : Exec := runMovFromA (.ind .eXyInc) s
/-- MOV A, #i4 -/
def execMovAI (i : Nibble) (s : State) : Exec := runMovAImm i s
/-- MOV ¥cur, #i4 -/
def execMovCurI (r : Byte) (i : Nibble) (s : State) : Exec := runMovImm (.cur r) i s
/-- MOV [HL], #i4 -/
def execMovHlI (i : Nibble) (s : State) : Exec := runMovImm (.ind .hl) i s
/-- MOV [XY], #i4 -/
def execMovXyI (i : Nibble) (s : State) : Exec := runMovImm (.ind .xy) i s
/-- MOV E:[HL], #i4 -/
def execMovEHlI (i : Nibble) (s : State) : Exec := runMovImm (.ind .eHl) i s
/-- MOV E:[XY], #i4 -/
def execMovEXyI (i : Nibble) (s : State) : Exec := runMovImm (.ind .eXy) i s
/-- MOV [HL+], #i4 -/
def execMovHlIncI (i : Nibble) (s : State) : Exec := runMovImm (.ind .hlInc) i s
/-- MOV [XY+], #i4 -/
def execMovXyIncI (i : Nibble) (s : State) : Exec := runMovImm (.ind .xyInc) i s
/-- MOV E:[HL+], #i4 -/
def execMovEHlIncI (i : Nibble) (s : State) : Exec := runMovImm (.ind .eHlInc) i s
/-- MOV E:[XY+], #i4 -/
def execMovEXyIncI (i : Nibble) (s : State) : Exec := runMovImm (.ind .eXyInc) i s

end Sys2Proof.Machine
end

