-- ==== Sys2Proof/Machine/Dispatch.lean ====
section
/-! DEFINITION. One arm per instruction: a call of its meaning. -/

namespace Sys2Proof.Machine

def exec (i : Instr) (s : State) : Host.Outcome State Fault Refusal :=
  match i with
  | .incSfr r => Sys2Proof.Machine.execIncSfr r s
  | .incCur r => Sys2Proof.Machine.execIncCur r s
  | .incHl => Sys2Proof.Machine.execIncHl s
  | .incXy => Sys2Proof.Machine.execIncXy s
  | .incEHl => Sys2Proof.Machine.execIncEHl s
  | .incEXy => Sys2Proof.Machine.execIncEXy s
  | .incHlInc => Sys2Proof.Machine.execIncHlInc s
  | .incXyInc => Sys2Proof.Machine.execIncXyInc s
  | .incEHlInc => Sys2Proof.Machine.execIncEHlInc s
  | .incEXyInc => Sys2Proof.Machine.execIncEXyInc s
  | .decSfr r => Sys2Proof.Machine.execDecSfr r s
  | .decCur r => Sys2Proof.Machine.execDecCur r s
  | .decHl => Sys2Proof.Machine.execDecHl s
  | .decXy => Sys2Proof.Machine.execDecXy s
  | .decEHl => Sys2Proof.Machine.execDecEHl s
  | .decEXy => Sys2Proof.Machine.execDecEXy s
  | .decHlInc => Sys2Proof.Machine.execDecHlInc s
  | .decXyInc => Sys2Proof.Machine.execDecXyInc s
  | .decEHlInc => Sys2Proof.Machine.execDecEHlInc s
  | .decEXyInc => Sys2Proof.Machine.execDecEXyInc s
  | .rolSfr r => Sys2Proof.Machine.execRolSfr r s
  | .rolCur r => Sys2Proof.Machine.execRolCur r s
  | .rolHl => Sys2Proof.Machine.execRolHl s
  | .rolXy => Sys2Proof.Machine.execRolXy s
  | .rolEHl => Sys2Proof.Machine.execRolEHl s
  | .rolEXy => Sys2Proof.Machine.execRolEXy s
  | .rolHlInc => Sys2Proof.Machine.execRolHlInc s
  | .rolXyInc => Sys2Proof.Machine.execRolXyInc s
  | .rolEHlInc => Sys2Proof.Machine.execRolEHlInc s
  | .rolEXyInc => Sys2Proof.Machine.execRolEXyInc s
  | .rorSfr r => Sys2Proof.Machine.execRorSfr r s
  | .rorCur r => Sys2Proof.Machine.execRorCur r s
  | .rorHl => Sys2Proof.Machine.execRorHl s
  | .rorXy => Sys2Proof.Machine.execRorXy s
  | .rorEHl => Sys2Proof.Machine.execRorEHl s
  | .rorEXy => Sys2Proof.Machine.execRorEXy s
  | .rorHlInc => Sys2Proof.Machine.execRorHlInc s
  | .rorXyInc => Sys2Proof.Machine.execRorXyInc s
  | .rorEHlInc => Sys2Proof.Machine.execRorEHlInc s
  | .rorEXyInc => Sys2Proof.Machine.execRorEXyInc s
  | .addSfrA r => Sys2Proof.Machine.execAddSfrA r s
  | .addCurA r => Sys2Proof.Machine.execAddCurA r s
  | .addHlA => Sys2Proof.Machine.execAddHlA s
  | .addXyA => Sys2Proof.Machine.execAddXyA s
  | .addEHlA => Sys2Proof.Machine.execAddEHlA s
  | .addEXyA => Sys2Proof.Machine.execAddEXyA s
  | .addHlIncA => Sys2Proof.Machine.execAddHlIncA s
  | .addXyIncA => Sys2Proof.Machine.execAddXyIncA s
  | .addEHlIncA => Sys2Proof.Machine.execAddEHlIncA s
  | .addEXyIncA => Sys2Proof.Machine.execAddEXyIncA s
  | .adcSfrA r => Sys2Proof.Machine.execAdcSfrA r s
  | .adcCurA r => Sys2Proof.Machine.execAdcCurA r s
  | .adcHlA => Sys2Proof.Machine.execAdcHlA s
  | .adcXyA => Sys2Proof.Machine.execAdcXyA s
  | .adcEHlA => Sys2Proof.Machine.execAdcEHlA s
  | .adcEXyA => Sys2Proof.Machine.execAdcEXyA s
  | .adcHlIncA => Sys2Proof.Machine.execAdcHlIncA s
  | .adcXyIncA => Sys2Proof.Machine.execAdcXyIncA s
  | .adcEHlIncA => Sys2Proof.Machine.execAdcEHlIncA s
  | .adcEXyIncA => Sys2Proof.Machine.execAdcEXyIncA s
  | .adcdSfrA r => Sys2Proof.Machine.execAdcdSfrA r s
  | .adcdCurA r => Sys2Proof.Machine.execAdcdCurA r s
  | .adcdHlA => Sys2Proof.Machine.execAdcdHlA s
  | .adcdXyA => Sys2Proof.Machine.execAdcdXyA s
  | .adcdEHlA => Sys2Proof.Machine.execAdcdEHlA s
  | .adcdEXyA => Sys2Proof.Machine.execAdcdEXyA s
  | .adcdHlIncA => Sys2Proof.Machine.execAdcdHlIncA s
  | .adcdXyIncA => Sys2Proof.Machine.execAdcdXyIncA s
  | .adcdEHlIncA => Sys2Proof.Machine.execAdcdEHlIncA s
  | .adcdEXyIncA => Sys2Proof.Machine.execAdcdEXyIncA s
  | .subSfrA r => Sys2Proof.Machine.execSubSfrA r s
  | .subCurA r => Sys2Proof.Machine.execSubCurA r s
  | .subHlA => Sys2Proof.Machine.execSubHlA s
  | .subXyA => Sys2Proof.Machine.execSubXyA s
  | .subEHlA => Sys2Proof.Machine.execSubEHlA s
  | .subEXyA => Sys2Proof.Machine.execSubEXyA s
  | .subHlIncA => Sys2Proof.Machine.execSubHlIncA s
  | .subXyIncA => Sys2Proof.Machine.execSubXyIncA s
  | .subEHlIncA => Sys2Proof.Machine.execSubEHlIncA s
  | .subEXyIncA => Sys2Proof.Machine.execSubEXyIncA s
  | .sbcSfrA r => Sys2Proof.Machine.execSbcSfrA r s
  | .sbcCurA r => Sys2Proof.Machine.execSbcCurA r s
  | .sbcHlA => Sys2Proof.Machine.execSbcHlA s
  | .sbcXyA => Sys2Proof.Machine.execSbcXyA s
  | .sbcEHlA => Sys2Proof.Machine.execSbcEHlA s
  | .sbcEXyA => Sys2Proof.Machine.execSbcEXyA s
  | .sbcHlIncA => Sys2Proof.Machine.execSbcHlIncA s
  | .sbcXyIncA => Sys2Proof.Machine.execSbcXyIncA s
  | .sbcEHlIncA => Sys2Proof.Machine.execSbcEHlIncA s
  | .sbcEXyIncA => Sys2Proof.Machine.execSbcEXyIncA s
  | .sbcdSfrA r => Sys2Proof.Machine.execSbcdSfrA r s
  | .sbcdCurA r => Sys2Proof.Machine.execSbcdCurA r s
  | .sbcdHlA => Sys2Proof.Machine.execSbcdHlA s
  | .sbcdXyA => Sys2Proof.Machine.execSbcdXyA s
  | .sbcdEHlA => Sys2Proof.Machine.execSbcdEHlA s
  | .sbcdEXyA => Sys2Proof.Machine.execSbcdEXyA s
  | .sbcdHlIncA => Sys2Proof.Machine.execSbcdHlIncA s
  | .sbcdXyIncA => Sys2Proof.Machine.execSbcdXyIncA s
  | .sbcdEHlIncA => Sys2Proof.Machine.execSbcdEHlIncA s
  | .sbcdEXyIncA => Sys2Proof.Machine.execSbcdEXyIncA s
  | .cmpSfrA r => Sys2Proof.Machine.execCmpSfrA r s
  | .cmpCurA r => Sys2Proof.Machine.execCmpCurA r s
  | .cmpHlA => Sys2Proof.Machine.execCmpHlA s
  | .cmpXyA => Sys2Proof.Machine.execCmpXyA s
  | .cmpEHlA => Sys2Proof.Machine.execCmpEHlA s
  | .cmpEXyA => Sys2Proof.Machine.execCmpEXyA s
  | .cmpHlIncA => Sys2Proof.Machine.execCmpHlIncA s
  | .cmpXyIncA => Sys2Proof.Machine.execCmpXyIncA s
  | .cmpEHlIncA => Sys2Proof.Machine.execCmpEHlIncA s
  | .cmpEXyIncA => Sys2Proof.Machine.execCmpEXyIncA s
  | .andSfrA r => Sys2Proof.Machine.execAndSfrA r s
  | .andCurA r => Sys2Proof.Machine.execAndCurA r s
  | .andHlA => Sys2Proof.Machine.execAndHlA s
  | .andXyA => Sys2Proof.Machine.execAndXyA s
  | .andEHlA => Sys2Proof.Machine.execAndEHlA s
  | .andEXyA => Sys2Proof.Machine.execAndEXyA s
  | .andHlIncA => Sys2Proof.Machine.execAndHlIncA s
  | .andXyIncA => Sys2Proof.Machine.execAndXyIncA s
  | .andEHlIncA => Sys2Proof.Machine.execAndEHlIncA s
  | .andEXyIncA => Sys2Proof.Machine.execAndEXyIncA s
  | .orSfrA r => Sys2Proof.Machine.execOrSfrA r s
  | .orCurA r => Sys2Proof.Machine.execOrCurA r s
  | .orHlA => Sys2Proof.Machine.execOrHlA s
  | .orXyA => Sys2Proof.Machine.execOrXyA s
  | .orEHlA => Sys2Proof.Machine.execOrEHlA s
  | .orEXyA => Sys2Proof.Machine.execOrEXyA s
  | .orHlIncA => Sys2Proof.Machine.execOrHlIncA s
  | .orXyIncA => Sys2Proof.Machine.execOrXyIncA s
  | .orEHlIncA => Sys2Proof.Machine.execOrEHlIncA s
  | .orEXyIncA => Sys2Proof.Machine.execOrEXyIncA s
  | .xorSfrA r => Sys2Proof.Machine.execXorSfrA r s
  | .xorCurA r => Sys2Proof.Machine.execXorCurA r s
  | .xorHlA => Sys2Proof.Machine.execXorHlA s
  | .xorXyA => Sys2Proof.Machine.execXorXyA s
  | .xorEHlA => Sys2Proof.Machine.execXorEHlA s
  | .xorEXyA => Sys2Proof.Machine.execXorEXyA s
  | .xorHlIncA => Sys2Proof.Machine.execXorHlIncA s
  | .xorXyIncA => Sys2Proof.Machine.execXorXyIncA s
  | .xorEHlIncA => Sys2Proof.Machine.execXorEHlIncA s
  | .xorEXyIncA => Sys2Proof.Machine.execXorEXyIncA s
  | .xchASfr r => Sys2Proof.Machine.execXchASfr r s
  | .xchACur r => Sys2Proof.Machine.execXchACur r s
  | .xchAHl => Sys2Proof.Machine.execXchAHl s
  | .xchAXy => Sys2Proof.Machine.execXchAXy s
  | .xchAEHl => Sys2Proof.Machine.execXchAEHl s
  | .xchAEXy => Sys2Proof.Machine.execXchAEXy s
  | .xchAHlInc => Sys2Proof.Machine.execXchAHlInc s
  | .xchAXyInc => Sys2Proof.Machine.execXchAXyInc s
  | .xchAEHlInc => Sys2Proof.Machine.execXchAEHlInc s
  | .xchAEXyInc => Sys2Proof.Machine.execXchAEXyInc s
  | .mtstSfrA r => Sys2Proof.Machine.execMtstSfrA r s
  | .mtstCurA r => Sys2Proof.Machine.execMtstCurA r s
  | .mtstHlA => Sys2Proof.Machine.execMtstHlA s
  | .mtstXyA => Sys2Proof.Machine.execMtstXyA s
  | .mtstEHlA => Sys2Proof.Machine.execMtstEHlA s
  | .mtstEXyA => Sys2Proof.Machine.execMtstEXyA s
  | .mtstHlIncA => Sys2Proof.Machine.execMtstHlIncA s
  | .mtstXyIncA => Sys2Proof.Machine.execMtstXyIncA s
  | .mtstEHlIncA => Sys2Proof.Machine.execMtstEHlIncA s
  | .mtstEXyIncA => Sys2Proof.Machine.execMtstEXyIncA s
  | .movADirect r => Sys2Proof.Machine.execMovADirect r s
  | .movDirectA r => Sys2Proof.Machine.execMovDirectA r s
  | .movAHl => Sys2Proof.Machine.execMovAHl s
  | .movHlA => Sys2Proof.Machine.execMovHlA s
  | .movAXy => Sys2Proof.Machine.execMovAXy s
  | .movXyA => Sys2Proof.Machine.execMovXyA s
  | .movAEHl => Sys2Proof.Machine.execMovAEHl s
  | .movEHlA => Sys2Proof.Machine.execMovEHlA s
  | .movAEXy => Sys2Proof.Machine.execMovAEXy s
  | .movEXyA => Sys2Proof.Machine.execMovEXyA s
  | .movAHlInc => Sys2Proof.Machine.execMovAHlInc s
  | .movHlIncA => Sys2Proof.Machine.execMovHlIncA s
  | .movAXyInc => Sys2Proof.Machine.execMovAXyInc s
  | .movXyIncA => Sys2Proof.Machine.execMovXyIncA s
  | .movAEHlInc => Sys2Proof.Machine.execMovAEHlInc s
  | .movEHlIncA => Sys2Proof.Machine.execMovEHlIncA s
  | .movAEXyInc => Sys2Proof.Machine.execMovAEXyInc s
  | .movEXyIncA => Sys2Proof.Machine.execMovEXyIncA s
  | .movAI v => Sys2Proof.Machine.execMovAI v s
  | .movCurI r v => Sys2Proof.Machine.execMovCurI r v s
  | .movHlI v => Sys2Proof.Machine.execMovHlI v s
  | .movXyI v => Sys2Proof.Machine.execMovXyI v s
  | .movEHlI v => Sys2Proof.Machine.execMovEHlI v s
  | .movEXyI v => Sys2Proof.Machine.execMovEXyI v s
  | .movHlIncI v => Sys2Proof.Machine.execMovHlIncI v s
  | .movXyIncI v => Sys2Proof.Machine.execMovXyIncI v s
  | .movEHlIncI v => Sys2Proof.Machine.execMovEHlIncI v s
  | .movEXyIncI v => Sys2Proof.Machine.execMovEXyIncI v s
  | .addCurI r v => Sys2Proof.Machine.execAddCurI r v s
  | .addHlI v => Sys2Proof.Machine.execAddHlI v s
  | .addXyI v => Sys2Proof.Machine.execAddXyI v s
  | .addEHlI v => Sys2Proof.Machine.execAddEHlI v s
  | .addEXyI v => Sys2Proof.Machine.execAddEXyI v s
  | .addHlIncI v => Sys2Proof.Machine.execAddHlIncI v s
  | .addXyIncI v => Sys2Proof.Machine.execAddXyIncI v s
  | .addEHlIncI v => Sys2Proof.Machine.execAddEHlIncI v s
  | .addEXyIncI v => Sys2Proof.Machine.execAddEXyIncI v s
  | .subCurI r v => Sys2Proof.Machine.execSubCurI r v s
  | .subHlI v => Sys2Proof.Machine.execSubHlI v s
  | .subXyI v => Sys2Proof.Machine.execSubXyI v s
  | .subEHlI v => Sys2Proof.Machine.execSubEHlI v s
  | .subEXyI v => Sys2Proof.Machine.execSubEXyI v s
  | .subHlIncI v => Sys2Proof.Machine.execSubHlIncI v s
  | .subXyIncI v => Sys2Proof.Machine.execSubXyIncI v s
  | .subEHlIncI v => Sys2Proof.Machine.execSubEHlIncI v s
  | .subEXyIncI v => Sys2Proof.Machine.execSubEXyIncI v s
  | .cmpCurI r v => Sys2Proof.Machine.execCmpCurI r v s
  | .cmpHlI v => Sys2Proof.Machine.execCmpHlI v s
  | .cmpXyI v => Sys2Proof.Machine.execCmpXyI v s
  | .cmpEHlI v => Sys2Proof.Machine.execCmpEHlI v s
  | .cmpEXyI v => Sys2Proof.Machine.execCmpEXyI v s
  | .cmpHlIncI v => Sys2Proof.Machine.execCmpHlIncI v s
  | .cmpXyIncI v => Sys2Proof.Machine.execCmpXyIncI v s
  | .cmpEHlIncI v => Sys2Proof.Machine.execCmpEHlIncI v s
  | .cmpEXyIncI v => Sys2Proof.Machine.execCmpEXyIncI v s
  | .andCurI r v => Sys2Proof.Machine.execAndCurI r v s
  | .andHlI v => Sys2Proof.Machine.execAndHlI v s
  | .andXyI v => Sys2Proof.Machine.execAndXyI v s
  | .andEHlI v => Sys2Proof.Machine.execAndEHlI v s
  | .andEXyI v => Sys2Proof.Machine.execAndEXyI v s
  | .andHlIncI v => Sys2Proof.Machine.execAndHlIncI v s
  | .andXyIncI v => Sys2Proof.Machine.execAndXyIncI v s
  | .andEHlIncI v => Sys2Proof.Machine.execAndEHlIncI v s
  | .andEXyIncI v => Sys2Proof.Machine.execAndEXyIncI v s
  | .orCurI r v => Sys2Proof.Machine.execOrCurI r v s
  | .orHlI v => Sys2Proof.Machine.execOrHlI v s
  | .orXyI v => Sys2Proof.Machine.execOrXyI v s
  | .orEHlI v => Sys2Proof.Machine.execOrEHlI v s
  | .orEXyI v => Sys2Proof.Machine.execOrEXyI v s
  | .orHlIncI v => Sys2Proof.Machine.execOrHlIncI v s
  | .orXyIncI v => Sys2Proof.Machine.execOrXyIncI v s
  | .orEHlIncI v => Sys2Proof.Machine.execOrEHlIncI v s
  | .orEXyIncI v => Sys2Proof.Machine.execOrEXyIncI v s
  | .xorCurI r v => Sys2Proof.Machine.execXorCurI r v s
  | .xorHlI v => Sys2Proof.Machine.execXorHlI v s
  | .xorXyI v => Sys2Proof.Machine.execXorXyI v s
  | .xorEHlI v => Sys2Proof.Machine.execXorEHlI v s
  | .xorEXyI v => Sys2Proof.Machine.execXorEXyI v s
  | .xorHlIncI v => Sys2Proof.Machine.execXorHlIncI v s
  | .xorXyIncI v => Sys2Proof.Machine.execXorXyIncI v s
  | .xorEHlIncI v => Sys2Proof.Machine.execXorEHlIncI v s
  | .xorEXyIncI v => Sys2Proof.Machine.execXorEXyIncI v s
  | .mtstCurM r m => Sys2Proof.Machine.execMtstCurM r m s
  | .mtstHlM m => Sys2Proof.Machine.execMtstHlM m s
  | .mtstXyM m => Sys2Proof.Machine.execMtstXyM m s
  | .mtstEHlM m => Sys2Proof.Machine.execMtstEHlM m s
  | .mtstEXyM m => Sys2Proof.Machine.execMtstEXyM m s
  | .mtstHlIncM m => Sys2Proof.Machine.execMtstHlIncM m s
  | .mtstXyIncM m => Sys2Proof.Machine.execMtstXyIncM m s
  | .mtstEHlIncM m => Sys2Proof.Machine.execMtstEHlIncM m s
  | .mtstEXyIncM m => Sys2Proof.Machine.execMtstEXyIncM m s
  | .mclrCurM r m => Sys2Proof.Machine.execMclrCurM r m s
  | .mclrHlM m => Sys2Proof.Machine.execMclrHlM m s
  | .mclrXyM m => Sys2Proof.Machine.execMclrXyM m s
  | .mclrEHlM m => Sys2Proof.Machine.execMclrEHlM m s
  | .mclrEXyM m => Sys2Proof.Machine.execMclrEXyM m s
  | .mclrHlIncM m => Sys2Proof.Machine.execMclrHlIncM m s
  | .mclrXyIncM m => Sys2Proof.Machine.execMclrXyIncM m s
  | .mclrEHlIncM m => Sys2Proof.Machine.execMclrEHlIncM m s
  | .mclrEXyIncM m => Sys2Proof.Machine.execMclrEXyIncM m s
  | .msetCurM r m => Sys2Proof.Machine.execMsetCurM r m s
  | .msetHlM m => Sys2Proof.Machine.execMsetHlM m s
  | .msetXyM m => Sys2Proof.Machine.execMsetXyM m s
  | .msetEHlM m => Sys2Proof.Machine.execMsetEHlM m s
  | .msetEXyM m => Sys2Proof.Machine.execMsetEXyM m s
  | .msetHlIncM m => Sys2Proof.Machine.execMsetHlIncM m s
  | .msetXyIncM m => Sys2Proof.Machine.execMsetXyIncM m s
  | .msetEHlIncM m => Sys2Proof.Machine.execMsetEHlIncM m s
  | .msetEXyIncM m => Sys2Proof.Machine.execMsetEXyIncM m s
  | .mnotCurM r m => Sys2Proof.Machine.execMnotCurM r m s
  | .mnotHlM m => Sys2Proof.Machine.execMnotHlM m s
  | .mnotXyM m => Sys2Proof.Machine.execMnotXyM m s
  | .mnotEHlM m => Sys2Proof.Machine.execMnotEHlM m s
  | .mnotEXyM m => Sys2Proof.Machine.execMnotEXyM m s
  | .mnotHlIncM m => Sys2Proof.Machine.execMnotHlIncM m s
  | .mnotXyIncM m => Sys2Proof.Machine.execMnotXyIncM m s
  | .mnotEHlIncM m => Sys2Proof.Machine.execMnotEHlIncM m s
  | .mnotEXyIncM m => Sys2Proof.Machine.execMnotEXyIncM m s
  | .btstCurN r n => Sys2Proof.Machine.execBtstCurN r n s
  | .btstHlN n => Sys2Proof.Machine.execBtstHlN n s
  | .btstXyN n => Sys2Proof.Machine.execBtstXyN n s
  | .btstEHlN n => Sys2Proof.Machine.execBtstEHlN n s
  | .btstEXyN n => Sys2Proof.Machine.execBtstEXyN n s
  | .btstHlIncN n => Sys2Proof.Machine.execBtstHlIncN n s
  | .btstXyIncN n => Sys2Proof.Machine.execBtstXyIncN n s
  | .btstEHlIncN n => Sys2Proof.Machine.execBtstEHlIncN n s
  | .btstEXyIncN n => Sys2Proof.Machine.execBtstEXyIncN n s
  | .bclrCurN r n => Sys2Proof.Machine.execBclrCurN r n s
  | .bclrHlN n => Sys2Proof.Machine.execBclrHlN n s
  | .bclrXyN n => Sys2Proof.Machine.execBclrXyN n s
  | .bclrEHlN n => Sys2Proof.Machine.execBclrEHlN n s
  | .bclrEXyN n => Sys2Proof.Machine.execBclrEXyN n s
  | .bclrHlIncN n => Sys2Proof.Machine.execBclrHlIncN n s
  | .bclrXyIncN n => Sys2Proof.Machine.execBclrXyIncN n s
  | .bclrEHlIncN n => Sys2Proof.Machine.execBclrEHlIncN n s
  | .bclrEXyIncN n => Sys2Proof.Machine.execBclrEXyIncN n s
  | .bsetCurN r n => Sys2Proof.Machine.execBsetCurN r n s
  | .bsetHlN n => Sys2Proof.Machine.execBsetHlN n s
  | .bsetXyN n => Sys2Proof.Machine.execBsetXyN n s
  | .bsetEHlN n => Sys2Proof.Machine.execBsetEHlN n s
  | .bsetEXyN n => Sys2Proof.Machine.execBsetEXyN n s
  | .bsetHlIncN n => Sys2Proof.Machine.execBsetHlIncN n s
  | .bsetXyIncN n => Sys2Proof.Machine.execBsetXyIncN n s
  | .bsetEHlIncN n => Sys2Proof.Machine.execBsetEHlIncN n s
  | .bsetEXyIncN n => Sys2Proof.Machine.execBsetEXyIncN n s
  | .bnotCurN r n => Sys2Proof.Machine.execBnotCurN r n s
  | .bnotHlN n => Sys2Proof.Machine.execBnotHlN n s
  | .bnotXyN n => Sys2Proof.Machine.execBnotXyN n s
  | .bnotEHlN n => Sys2Proof.Machine.execBnotEHlN n s
  | .bnotEXyN n => Sys2Proof.Machine.execBnotEXyN n s
  | .bnotHlIncN n => Sys2Proof.Machine.execBnotHlIncN n s
  | .bnotXyIncN n => Sys2Proof.Machine.execBnotXyIncN n s
  | .bnotEHlIncN n => Sys2Proof.Machine.execBnotEHlIncN n s
  | .bnotEXyIncN n => Sys2Proof.Machine.execBnotEXyIncN n s
  | .adcjCurN r n => Sys2Proof.Machine.execAdcjCurN r n s
  | .sbcjCurN r n => Sys2Proof.Machine.execSbcjCurN r n s
  | .adcjHlN n => Sys2Proof.Machine.execAdcjHlN n s
  | .sbcjHlN n => Sys2Proof.Machine.execSbcjHlN n s
  | .adcjXyN n => Sys2Proof.Machine.execAdcjXyN n s
  | .sbcjXyN n => Sys2Proof.Machine.execSbcjXyN n s
  | .adcjEHlN n => Sys2Proof.Machine.execAdcjEHlN n s
  | .sbcjEHlN n => Sys2Proof.Machine.execSbcjEHlN n s
  | .adcjEXyN n => Sys2Proof.Machine.execAdcjEXyN n s
  | .sbcjEXyN n => Sys2Proof.Machine.execSbcjEXyN n s
  | .adcjHlIncN n => Sys2Proof.Machine.execAdcjHlIncN n s
  | .sbcjHlIncN n => Sys2Proof.Machine.execSbcjHlIncN n s
  | .adcjXyIncN n => Sys2Proof.Machine.execAdcjXyIncN n s
  | .sbcjXyIncN n => Sys2Proof.Machine.execSbcjXyIncN n s
  | .adcjEHlIncN n => Sys2Proof.Machine.execAdcjEHlIncN n s
  | .sbcjEHlIncN n => Sys2Proof.Machine.execSbcjEHlIncN n s
  | .adcjEXyIncN n => Sys2Proof.Machine.execAdcjEXyIncN n s
  | .sbcjEXyIncN n => Sys2Proof.Machine.execSbcjEXyIncN n s
  | .mmovHl m n => Sys2Proof.Machine.execMmovHl m n s
  | .mmovXy m n => Sys2Proof.Machine.execMmovXy m n s
  | .mmovEHl m n => Sys2Proof.Machine.execMmovEHl m n s
  | .mmovEXy m n => Sys2Proof.Machine.execMmovEXy m n s
  | .bmovHl k n => Sys2Proof.Machine.execBmovHl k n s
  | .bmovXy k n => Sys2Proof.Machine.execBmovXy k n s
  | .bmovEHl k n => Sys2Proof.Machine.execBmovEHl k n s
  | .bmovEXy k n => Sys2Proof.Machine.execBmovEXy k n s
  | .movhbHlRa => Sys2Proof.Machine.execMovhbHlRa s
  | .movhbXyRa => Sys2Proof.Machine.execMovhbXyRa s
  | .movhbEHlRa => Sys2Proof.Machine.execMovhbEHlRa s
  | .movhbEXyRa => Sys2Proof.Machine.execMovhbEXyRa s
  | .movhbHlIncRa => Sys2Proof.Machine.execMovhbHlIncRa s
  | .movhbXyIncRa => Sys2Proof.Machine.execMovhbXyIncRa s
  | .movhbEHlIncRa => Sys2Proof.Machine.execMovhbEHlIncRa s
  | .movhbEXyIncRa => Sys2Proof.Machine.execMovhbEXyIncRa s
  | .movhbHlCadr w => Sys2Proof.Machine.execMovhbHlCadr w s
  | .movhbXyCadr w => Sys2Proof.Machine.execMovhbXyCadr w s
  | .movhbEHlCadr w => Sys2Proof.Machine.execMovhbEHlCadr w s
  | .movhbEXyCadr w => Sys2Proof.Machine.execMovhbEXyCadr w s
  | .movhbHlIncCadr w => Sys2Proof.Machine.execMovhbHlIncCadr w s
  | .movhbXyIncCadr w => Sys2Proof.Machine.execMovhbXyIncCadr w s
  | .movhbEHlIncCadr w => Sys2Proof.Machine.execMovhbEHlIncCadr w s
  | .movhbEXyIncCadr w => Sys2Proof.Machine.execMovhbEXyIncCadr w s
  | .movlbHlRa => Sys2Proof.Machine.execMovlbHlRa s
  | .movlbXyRa => Sys2Proof.Machine.execMovlbXyRa s
  | .movlbEHlRa => Sys2Proof.Machine.execMovlbEHlRa s
  | .movlbEXyRa => Sys2Proof.Machine.execMovlbEXyRa s
  | .movlbHlIncRa => Sys2Proof.Machine.execMovlbHlIncRa s
  | .movlbXyIncRa => Sys2Proof.Machine.execMovlbXyIncRa s
  | .movlbEHlIncRa => Sys2Proof.Machine.execMovlbEHlIncRa s
  | .movlbEXyIncRa => Sys2Proof.Machine.execMovlbEXyIncRa s
  | .movlbHlCadr w => Sys2Proof.Machine.execMovlbHlCadr w s
  | .movlbXyCadr w => Sys2Proof.Machine.execMovlbXyCadr w s
  | .movlbEHlCadr w => Sys2Proof.Machine.execMovlbEHlCadr w s
  | .movlbEXyCadr w => Sys2Proof.Machine.execMovlbEXyCadr w s
  | .movlbHlIncCadr w => Sys2Proof.Machine.execMovlbHlIncCadr w s
  | .movlbXyIncCadr w => Sys2Proof.Machine.execMovlbXyIncCadr w s
  | .movlbEHlIncCadr w => Sys2Proof.Machine.execMovlbEHlIncCadr w s
  | .movlbEXyIncCadr w => Sys2Proof.Machine.execMovlbEXyIncCadr w s
  | .movxbHlRa => Sys2Proof.Machine.execMovxbHlRa s
  | .movxbXyRa => Sys2Proof.Machine.execMovxbXyRa s
  | .movxbEHlRa => Sys2Proof.Machine.execMovxbEHlRa s
  | .movxbEXyRa => Sys2Proof.Machine.execMovxbEXyRa s
  | .movxbHlIncRa => Sys2Proof.Machine.execMovxbHlIncRa s
  | .movxbXyIncRa => Sys2Proof.Machine.execMovxbXyIncRa s
  | .movxbEHlIncRa => Sys2Proof.Machine.execMovxbEHlIncRa s
  | .movxbEXyIncRa => Sys2Proof.Machine.execMovxbEXyIncRa s
  | .movxbRaHl => Sys2Proof.Machine.execMovxbRaHl s
  | .movxbRaXy => Sys2Proof.Machine.execMovxbRaXy s
  | .movxbRaEHl => Sys2Proof.Machine.execMovxbRaEHl s
  | .movxbRaEXy => Sys2Proof.Machine.execMovxbRaEXy s
  | .movxbRaHlInc => Sys2Proof.Machine.execMovxbRaHlInc s
  | .movxbRaXyInc => Sys2Proof.Machine.execMovxbRaXyInc s
  | .movxbRaEHlInc => Sys2Proof.Machine.execMovxbRaEHlInc s
  | .movxbRaEXyInc => Sys2Proof.Machine.execMovxbRaEXyInc s
  | .movxbHlXadr w => Sys2Proof.Machine.execMovxbHlXadr w s
  | .movxbXyXadr w => Sys2Proof.Machine.execMovxbXyXadr w s
  | .movxbEHlXadr w => Sys2Proof.Machine.execMovxbEHlXadr w s
  | .movxbEXyXadr w => Sys2Proof.Machine.execMovxbEXyXadr w s
  | .movxbHlIncXadr w => Sys2Proof.Machine.execMovxbHlIncXadr w s
  | .movxbXyIncXadr w => Sys2Proof.Machine.execMovxbXyIncXadr w s
  | .movxbEHlIncXadr w => Sys2Proof.Machine.execMovxbEHlIncXadr w s
  | .movxbEXyIncXadr w => Sys2Proof.Machine.execMovxbEXyIncXadr w s
  | .movxbXadrHl w => Sys2Proof.Machine.execMovxbXadrHl w s
  | .movxbXadrXy w => Sys2Proof.Machine.execMovxbXadrXy w s
  | .movxbXadrEHl w => Sys2Proof.Machine.execMovxbXadrEHl w s
  | .movxbXadrEXy w => Sys2Proof.Machine.execMovxbXadrEXy w s
  | .movxbXadrHlInc w => Sys2Proof.Machine.execMovxbXadrHlInc w s
  | .movxbXadrXyInc w => Sys2Proof.Machine.execMovxbXadrXyInc w s
  | .movxbXadrEHlInc w => Sys2Proof.Machine.execMovxbXadrEHlInc w s
  | .movxbXadrEXyInc w => Sys2Proof.Machine.execMovxbXadrEXyInc w s
  | .nop => Sys2Proof.Machine.execNop s
  | .halt => Sys2Proof.Machine.execHalt s
  | .fclrG => Sys2Proof.Machine.execFclrG s
  | .fclrC => Sys2Proof.Machine.execFclrC s
  | .fclrZ => Sys2Proof.Machine.execFclrZ s
  | .fclrFlag => Sys2Proof.Machine.execFclrFlag s
  | .fsetG => Sys2Proof.Machine.execFsetG s
  | .fsetC => Sys2Proof.Machine.execFsetC s
  | .fsetZ => Sys2Proof.Machine.execFsetZ s
  | .fsetFlag => Sys2Proof.Machine.execFsetFlag s
  | .rt => Sys2Proof.Machine.execRt s
  | .rti => Sys2Proof.Machine.execRti s
  | .rtnmi => Sys2Proof.Machine.execRtnmi s
  | .ei => Sys2Proof.Machine.execEi s
  | .di => Sys2Proof.Machine.execDi s
  | .pushHl => Sys2Proof.Machine.execPushHl s
  | .pushXy => Sys2Proof.Machine.execPushXy s
  | .popHl => Sys2Proof.Machine.execPopHl s
  | .popXy => Sys2Proof.Machine.execPopXy s
  | .ljmp w => Sys2Proof.Machine.execLjmp w s
  | .lcal w => Sys2Proof.Machine.execLcal w s
  | .msa w => Sys2Proof.Machine.execMsa w s
  | .jmpPcA => Sys2Proof.Machine.execJmpPcA s
  | .incbHl => Sys2Proof.Machine.execIncbHl s
  | .incbXy => Sys2Proof.Machine.execIncbXy s
  | .incwRa => Sys2Proof.Machine.execIncwRa s
  | .movEbrI v => Sys2Proof.Machine.execMovEbrI v s
  | .movCbrI v => Sys2Proof.Machine.execMovCbrI v s
  | .movYRegI v => Sys2Proof.Machine.execMovYRegI v s
  | .movXRegI v => Sys2Proof.Machine.execMovXRegI v s
  | .movLRegI v => Sys2Proof.Machine.execMovLRegI v s
  | .movHRegI v => Sys2Proof.Machine.execMovHRegI v s
  | .movRa0I v => Sys2Proof.Machine.execMovRa0I v s
  | .movRa1I v => Sys2Proof.Machine.execMovRa1I v s
  | .movRa2I v => Sys2Proof.Machine.execMovRa2I v s
  | .movRa3I v => Sys2Proof.Machine.execMovRa3I v s
  | .jmp a => Sys2Proof.Machine.execJmp a s
  | .cal a => Sys2Proof.Machine.execCal a s
  | .bng d => Sys2Proof.Machine.execBng d s
  | .sjmp d => Sys2Proof.Machine.execSjmp d s
  | .bc d => Sys2Proof.Machine.execBc d s
  | .blt d => Sys2Proof.Machine.execBlt d s
  | .bnc d => Sys2Proof.Machine.execBnc d s
  | .bge d => Sys2Proof.Machine.execBge d s
  | .bz d => Sys2Proof.Machine.execBz d s
  | .beq d => Sys2Proof.Machine.execBeq d s
  | .bnz d => Sys2Proof.Machine.execBnz d s
  | .bne d => Sys2Proof.Machine.execBne d s
  | .ble d => Sys2Proof.Machine.execBle d s
  | .bgt d => Sys2Proof.Machine.execBgt d s

end Sys2Proof.Machine
end

