-- ==== Sys2Proof/Machine/Execute.lean ====
section
/-! DEFINITION. What happens at one instruction boundary (60_exceptions.md R505, R509, R521), and the fetch and
execution of one instruction (30_encoding.md R120, R121, R153). -/

namespace Sys2Proof.Machine

/-! ## The meaning of a decoded instruction

Lean's compiler builds no constructor whose tag is above 244, and `Instr` has 454, so what builds a term of `Instr`
is marked noncomputable. That concerns compiled code only: the kernel evaluates it. `execView` computes what
`execOf` means without building the term, and the compiler uses it in its place, so that the machine also runs. -/

/-- The meaning of an operation on a location and A. -/
def execAlu (op : AluOp) (o : Obj) (s : State) : Exec :=
  match op with
  | .inc => runInc o s
  | .dec => runDec o s
  | .rol => runRol o s
  | .ror => runRor o s
  | .add => runAdd o s
  | .adc => runAdc o s
  | .adcd => runAdcd o s
  | .sub => runSub o s
  | .sbc => runSbc o s
  | .sbcd => runSbcd o s
  | .cmp => runCmp o s
  | .and => runAnd o s
  | .or => runOr o s
  | .xor => runXor o s
  | .xch => runXch o s
  | .mtst => runMtst o s

/-- The meaning of an operation with an immediate. -/
def execImm (op : ImmOp) (o : Obj) (i : Nibble) (s : State) : Exec :=
  match op with
  | .mov => runMovImm o i s
  | .add => runAddImm o i s
  | .sub => runSubImm o i s
  | .cmp => runCmpImm o i s
  | .and => runAndImm o i s
  | .or => runOrImm o i s
  | .xor => runXorImm o i s
  | .mtst => runMtstImm o i s
  | .mclr => runMclr o i s
  | .mset => runMset o i s
  | .mnot => runMnot o i s

/-- The meaning of an operation on one bit. -/
def execBit (op : BitOp) (o : Obj) (n : Fin 4) (s : State) : Exec :=
  match op with
  | .btst => runBtst o n s
  | .bclr => runBclr o n s
  | .bset => runBset o n s
  | .bnot => runBnot o n s

/-- The meaning of a base-n operation. -/
def execBase (op : BaseOp) (o : Obj) (n : Nat) (s : State) : Exec :=
  match op with
  | .adcj => runAdcj o n s
  | .sbcj => runSbcj o n s

/-- The meaning of an operation and an operand form. -/
def execView (v : View) (s : State) : Exec :=
  match v with
  | .alu op o => execAlu op (aluObj o) s
  | .movToA o => runMovToA (movObj o) s
  | .movFromA o => runMovFromA (movObj o) s
  | .movAImm i => runMovAImm i s
  | .imm op o i => execImm op (immObj o) i s
  | .bit op o n => execBit op (immObj o) n s
  | .baseN op o n => execBase op (immObj o) n s
  | .mmov f m n => runMmov f m n s
  | .bmov f k n => runBmov f k n s
  | .rom h m f => runRom h m f s
  | .xmLoad m f => runXmLoad m f s
  | .xmStore f m => runXmStore f m s
  | .push p => runPush p s
  | .pop p => runPop p s
  | .fclr f => runFclr f s
  | .fset f => runFset f s
  | .ljmp w => runLjmp w s
  | .jmp a => runJmp a s
  | .sjmp d => runSjmp d s
  | .jmpPcA => runJmpPcA s
  | .branch b d => runBranch b d s
  | .lcal w => runLcal w s
  | .cal a => runCal a s
  | .rt => runRt s
  | .rti => runRti s
  | .rtnmi => runRtnmi s
  | .nop => runNop s
  | .halt => runHalt s
  | .ei => runEi s
  | .di => runDi s
  | .msa w => runMsa w s
  | .movReg r i => runMovReg r i s
  | .incb p => runIncb p s
  | .incw => runIncw s

/-- `exec` gives every instruction the meaning of its operation on its operand form. -/
theorem exec_eq_execView (i : Instr) (s : State) : exec i s = execView i.view s := by
  cases i <;> rfl

/-- `View.toInstr` is a right inverse of `Instr.view`. -/
theorem view_toInstr (v : View) : v.toInstr.view = v := by
  cases v with
  | alu p q => cases p <;> rcases q with _ | _ | (_ | _ | _ | _ | _ | _ | _ | _) <;> rfl
  | movToA p => rcases p with _ | (_ | _ | _ | _ | _ | _ | _ | _) <;> rfl
  | movFromA p => rcases p with _ | (_ | _ | _ | _ | _ | _ | _ | _) <;> rfl
  | imm p q r => cases p <;> rcases q with _ | (_ | _ | _ | _ | _ | _ | _ | _) <;> rfl
  | bit p q r => cases p <;> rcases q with _ | (_ | _ | _ | _ | _ | _ | _ | _) <;> rfl
  | baseN p q r => cases p <;> rcases q with _ | (_ | _ | _ | _ | _ | _ | _ | _) <;> rfl
  | mmov p q r => cases p <;> rfl
  | bmov p q r => cases p <;> rfl
  | rom p q r => cases p <;> cases q <;> cases r <;> rfl
  | xmLoad p q => cases p <;> cases q <;> rfl
  | xmStore p q => cases p <;> cases q <;> rfl
  | push p => cases p <;> rfl
  | pop p => cases p <;> rfl
  | fclr p => cases p <;> rfl
  | fset p => cases p <;> rfl
  | incb p => cases p <;> rfl
  | branch p q => cases p <;> rfl
  | movReg p q => cases p <;> rfl
  | _ => rfl

/-- The meaning of the instruction an operation and an operand form name. -/
noncomputable def execOf (v : View) (s : State) : Exec := exec v.toInstr s

/-- What the compiler runs for `execOf`. -/
@[csimp]
theorem execOf_eq_execView : @execOf = @execView := by
  funext v s
  rw [execOf, exec_eq_execView, view_toInstr]

/-! ## Fetch and execution -/

/-- What the fetch at `pc` gives. -/
inductive Fetched where
  /-- The operation and the operand form of an assigned word, with its second word if it takes one. -/
  | found (v : View)
  /-- A word of the instruction is not implemented (20_memory.md R71). -/
  | absent
  /-- The first word is not assigned (30_encoding.md R147). -/
  | undefined (w : Word)
  deriving DecidableEq, Repr

/-- Fetch: the word at `pc` and, for a two-word instruction, the word at `pc + 1` modulo 2^16
(30_encoding.md R120, R121; D38). -/
def fetch (s : State) : Fetched :=
  match pmRead s s.pc with
  | none => .absent
  | some w =>
    match openWord w with
    | none => .undefined w
    | some (.whole v) => .found v
    | some (.more k) =>
      match pmRead s (s.pc + 1) with
      | none => .absent
      | some a => .found (k a)

/-- Count the machine cycles of an instruction that gave a next state (70_reset_and_hazards.md R570). -/
def countCycles (n : Nat) (e : Exec) : Exec :=
  match e with
  | .next t => .next { t with cycles := t.cycles + n }
  | .fault f => .fault f
  | .refused r => .refused r

/-- Execute the instruction at `pc`. -/
def execute (s : State) : Exec :=
  match fetch s with
  | .absent => .fault .programAddressNotImplemented
  | .undefined w => .refused (.undefinedOpcode w)
  | .found v => countCycles v.cycles (execOf v s)

/-! ## One instruction boundary -/

/-- `HALT_WAKE` releases halt mode first (60_exceptions.md R521). -/
def wakeUp (e : Stimulus) (s : State) : State := if e.wake then { s with halted := false } else s

/-- The boundary rule: a non-maskable request, else a maskable one with MIE = 1, else the instruction at `pc`
(60_exceptions.md R505, R509). -/
def boundary (e : Stimulus) (s : State) : Exec :=
  match e.nmi with
  | some v => .next (acceptNmi v s)
  | none =>
    match e.irq with
    | some v => if s.mie then .next (acceptIrq v s) else execute s
    | none => execute s

/-- One boundary under what the environment presents: a system reset overrides everything; a halted core stays as it
is (60_exceptions.md R509, R520; 70_reset_and_hazards.md R551). -/
def stepUnder (e : Stimulus) (s : State) : Exec :=
  if e.reset then .next (systemReset s)
  else
    let t := wakeUp e s
    if t.halted then .next t else boundary e t

end Sys2Proof.Machine
end

