-- ==== Sys2Proof/Machine/Step.lean ====
section
/-! DEFINITION. One step: the next stimulus of the schedule `env`, or none, at the instruction boundary the state
stands at. -/

namespace Sys2Proof.Machine

/-- One step of the machine. With an empty schedule the environment presents nothing. -/
def step (s : State) : Host.Outcome State Fault Refusal :=
  match s.env with
  | [] => stepUnder .quiet s
  | e :: rest => stepUnder e { s with env := rest }

/-- The state with an instruction placed at `pc`: its first word is bits 15 to 0 of `w`, its second bits 31 to 16;
bits from `nbits` on count as 0. The core is not halted and the environment presents nothing, so the next step
fetches and runs the instruction. It stands for the filling of program memory from outside (20_memory.md R71). -/
def State.withFetchWord (s : State) (nbits w : Nat) : State :=
  let u := w % 2 ^ nbits
  { placeWords s s.pc (BitVec.ofNat 16 u) (BitVec.ofNat 16 (u / 2 ^ 16)) with halted := false, env := [] }

end Sys2Proof.Machine
end

