-- ==== Sys2Proof/Safety.lean ====
section
/-! DEFINITION. The terms the statements use: when an instruction is ready to run, what it leaves unchanged, and the
invariant that every step keeps. -/

namespace Sys2Proof.Machine

/-! ## What an instruction leaves unchanged -/

/-- The core registers a write changes (20_memory.md R76). -/
def CoreReg.writable : CoreReg → Bool
  | .spl => false
  | .sph => false
  | .mief => false
  | .ra0 => true
  | .ra1 => true
  | .ra2 => true
  | .ra3 => true
  | .rsp => true
  | .y => true
  | .x => true
  | .l => true
  | .h => true
  | .cbr => true
  | .ebr => true

/-- The registers of a pair (10_state.md R28). -/
def CoreReg.inPair : Pair → CoreReg → Bool
  | .hl, r => decide (r = .h ∨ r = .l)
  | .xy, r => decide (r = .x ∨ r = .y)

/-- What no instruction changes: the parameters, program memory, the schedule, MIE_SAVED and the model's counters of
resets and cycles. -/
structure SameWorld (s t : State) : Prop where
  pm : t.pm = s.pm
  device : t.device = s.device
  env : t.env = s.env
  mieSaved : t.mieSaved = s.mieSaved
  resets : t.resets = s.resets
  cycles : t.cycles = s.cycles

/-- The call stack and its pointer are unchanged. -/
structure SameCalls (s t : State) : Prop where
  sp : t.sp = s.sp
  cstack : t.cstack = s.cstack

/-- What the instructions other than calls, returns, interrupts' and halt's leave unchanged. -/
structure SameControl (s t : State) : Prop where
  world : SameWorld s t
  calls : SameCalls s t
  rstack : t.rstack = s.rstack
  mie : t.mie = s.mie
  halted : t.halted = s.halted

/-! ## An instruction with a data memory operand -/

/-- The pair a post-increment form counts up. -/
def postPair : Obj → Option Pair
  | .direct _ => none
  | .sfr _ => none
  | .cur _ => none
  | .ind m => if indPost m then some (indPair m) else none

/-- The instruction executes: no post-increment form addresses a pair or bank register (20_memory.md R89), and the
address is implemented (R78). -/
def Ready (o : Obj) (s : State) : Prop :=
  (objPost o = true → isPairOrBank (objAddr o s) = false) ∧ dmPresent s (objAddr o s) = true

/-- What a store shows the device behind a peripheral SFR. -/
def storeEvents (a : DataAddr) : Option Nibble → List BusEvent
  | some v => [.sfrWrite a v]
  | none => []

/-- Everything an instruction of the template of 40_transfer.md R205 does besides A, Z and C: whether it reads its
location, and what it stores there, if it stores. -/
structure DataEffect (o : Obj) (reads : Bool) (store : Option Nibble) (s t : State) : Prop where
  /-- One word. -/
  pc : t.pc = s.pc + 1
  control : SameControl s t
  /-- Data RAM holds what was stored, at the operand's address alone. -/
  ram : ∀ a, locate a = .ram →
    ramValue t a = if a = objAddr o s then store.getD (ramValue s a) else ramValue s a
  /-- A core register holds what was stored if it is the operand's location and takes writes; the pair of a
  post-increment form is treated below. -/
  regs : ∀ r, (∀ p, postPair o = some p → CoreReg.inPair p r = false) →
    coreRegValue r t =
      if locate (objAddr o s) = .core r ∧ r.writable = true then store.getD (coreRegValue r s) else coreRegValue r s
  /-- The pair of a post-increment form counts up by one, and G says whether it overflowed (20_memory.md R87). -/
  post : ∀ p, postPair o = some p →
    pairValue p t = pairValue p s + 1 ∧ t.g = decide (pairValue p s = 255)
  /-- A form without post-increment leaves G unchanged. -/
  g : postPair o = none → t.g = s.g
  xm : t.xm = s.xm
  /-- A peripheral sees the accesses, in their order; nothing else does. -/
  trace : t.trace =
    if locate (objAddr o s) = .peripheral then
      storeEvents (objAddr o s) store ++ (if reads then [BusEvent.sfrRead (objAddr o s)] else []) ++ s.trace
    else s.trace
  /-- Only the read of a peripheral draws a free value. -/
  draws : t.draws = s.draws + if reads = true ∧ locate (objAddr o s) = .peripheral then 1 else 0

/-! ## An 8-bit transfer -/

/-- The pair a post-increment form counts up by two. -/
def postPair2 (m : Ind) : Option Pair := if indPost m then some (indPair m) else none

/-- The transfer executes: no post-increment form addresses a pair or bank register with either nibble
(20_memory.md R89), and both addresses are implemented (R78). -/
def ReadyByte (m : Ind) (s : State) : Prop :=
  (indPost m = true → isPairOrBank (indAddr m s) = false ∧ isPairOrBank (indAddr1 m s) = false) ∧
  dmPresent s (indAddr m s) = true ∧ dmPresent s (indAddr1 m s) = true

/-- The pair of a post-increment form counts up by two, and G says whether it overflowed; the other forms leave G
unchanged (20_memory.md R88). -/
structure Post2 (m : Ind) (s t : State) : Prop where
  post : ∀ p, postPair2 m = some p →
    pairValue p t = pairValue p s + 2 ∧ t.g = decide (254 ≤ (pairValue p s).toNat)
  g : postPair2 m = none → t.g = s.g

/-- What a nibble of an 8-bit load shows the device behind a peripheral SFR. -/
def loadEvents (a : DataAddr) (v : Nibble) : List BusEvent :=
  if locate a = .peripheral then [.sfrWrite a v] else []

/-- The load form of an 8-bit transfer of `n` words with the byte `b`, after devices saw `seen`
(45_rom_ext_transfer.md R378). Of a register of 20_memory.md R90 that is addressed nothing is said. -/
structure LoadEffect (m : Ind) (n : Nat) (b : Byte) (seen : List BusEvent) (s t : State) : Prop where
  pc : t.pc = s.pc + BitVec.ofNat 16 n
  control : SameControl s t
  a : t.a = s.a
  z : t.z = s.z
  c : t.c = s.c
  xm : t.xm = s.xm
  /-- Data RAM holds the low nibble at `obj`, the high nibble at `obj+1`, and is unchanged elsewhere. -/
  ram : ∀ a, locate a = .ram →
    ramValue t a =
      if a = indAddr1 m s then b.extractLsb' 4 4
      else if a = indAddr m s then b.extractLsb' 0 4
      else ramValue s a
  /-- RSP, outside the ranges of R90, is written when it is addressed. -/
  rsp : t.rsp =
    if locate (indAddr1 m s) = .core .rsp then b.extractLsb' 4 4
    else if locate (indAddr m s) = .core .rsp then b.extractLsb' 0 4
    else s.rsp
  /-- A register that is neither addressed nor in the pair of a post-increment form is unchanged. -/
  regs : ∀ r, (∀ p, postPair2 m = some p → CoreReg.inPair p r = false) →
    locate (indAddr m s) ≠ .core r → locate (indAddr1 m s) ≠ .core r → coreRegValue r t = coreRegValue r s
  /-- A peripheral sees the nibble written to it, the low one first. -/
  trace : t.trace = loadEvents (indAddr1 m s) (b.extractLsb' 4 4) ++ loadEvents (indAddr m s) (b.extractLsb' 0 4) ++
    seen ++ s.trace
  post : Post2 m s t

/-- The byte a store form of an 8-bit transfer reads: the low nibble first, so that two peripheral SFRs give two free
values (45_rom_ext_transfer.md R378). -/
def storedByte (m : Ind) (s : State) : Byte :=
  dmValue (afterDmRead s (indAddr m s)) (indAddr1 m s) ++ dmValue s (indAddr m s)

/-- What a read shows the device behind a peripheral SFR. -/
def readEvents (a : DataAddr) : List BusEvent := if locate a = .peripheral then [.sfrRead a] else []

/-- The store form of an 8-bit transfer of `n` words, to the external address `x` (45_rom_ext_transfer.md R378). -/
structure StoreEffect (m : Ind) (n : Nat) (x : Word) (s t : State) : Prop where
  pc : t.pc = s.pc + BitVec.ofNat 16 n
  control : SameControl s t
  a : t.a = s.a
  z : t.z = s.z
  c : t.c = s.c
  ram : ∀ a, ramValue t a = ramValue s a
  regs : ∀ r, (∀ p, postPair2 m = some p → CoreReg.inPair p r = false) →
    coreRegValue r t = coreRegValue r s
  /-- Plain storage holds the byte at the address, and is unchanged elsewhere. -/
  xm : ∀ k, Memory.read t.xm k =
    if xmIsStorage s x = true ∧ k = x.toNat then some (storedByte m s) else Memory.read s.xm k
  /-- Devices see the reads, the low nibble first, then the write. -/
  trace : t.trace = .xmWrite x (storedByte m s) :: (readEvents (indAddr1 m s) ++ readEvents (indAddr m s) ++ s.trace)
  post : Post2 m s t

end Sys2Proof.Machine

namespace Sys2Proof

open Sys2Proof.Machine

/-! ## Which instructions write what

Each list is that of a rule of 10_state.md. -/

/-- The operand of an instruction that operates on one nibble of data memory (20_memory.md R83 to R88). -/
def View.operand : View → Option Obj
  | .alu _ o => some (aluObj o)
  | .movToA o => some (movObj o)
  | .movFromA o => some (movObj o)
  | .imm _ o _ => some (immObj o)
  | .bit _ o _ => some (immObj o)
  | .baseN _ o _ => some (immObj o)
  | .mmov f _ _ => some (.ind f.toInd)
  | .bmov f _ _ => some (.ind f.toInd)
  | _ => none

/-- The operand of an 8-bit transfer (45_rom_ext_transfer.md R378). -/
def View.byteOperand : View → Option Ind
  | .rom _ m _ => some m
  | .xmLoad m _ => some m
  | .xmStore _ m => some m
  | _ => none

/-- A call or a return (10_state.md R32, R33). -/
def View.movesSp : View → Bool
  | .lcal _ => true
  | .cal _ => true
  | .rt => true
  | .rti => true
  | .rtnmi => true
  | _ => false

/-- A PUSH (10_state.md R35). -/
def View.isPush : View → Bool
  | .push _ => true
  | _ => false

/-- What writes MIE (10_state.md R26). -/
def View.writesMie : View → Bool
  | .ei => true
  | .di => true
  | .rti => true
  | .rtnmi => true
  | _ => false

/-- What writes C (10_state.md R23). -/
def View.writesC : View → Bool
  | .alu op _ => !decide (op = .and ∨ op = .or ∨ op = .xor ∨ op = .xch ∨ op = .mtst)
  | .imm op _ _ => decide (op = .add ∨ op = .sub ∨ op = .cmp)
  | .baseN _ _ _ => true
  | .fclr f => decide (f = .c ∨ f = .flag)
  | .fset f => decide (f = .c ∨ f = .flag)
  | .pop p => decide (p = .hl)
  | _ => false

/-- What writes Z (10_state.md R24). -/
def View.writesZ : View → Bool
  | .alu op _ => !decide (op = .xch)
  | .movToA _ => true
  | .movAImm _ => true
  | .imm _ _ _ => true
  | .bit _ _ _ => true
  | .baseN _ _ _ => true
  | .mmov _ _ _ => true
  | .bmov _ _ _ => true
  | .fclr f => decide (f = .z ∨ f = .flag)
  | .fset f => decide (f = .z ∨ f = .flag)
  | .pop p => decide (p = .hl)
  | _ => false

/-- What writes G (10_state.md R25). -/
def View.writesG : View → Bool
  | .rom _ m _ => indPost m
  | .xmLoad m _ => indPost m
  | .xmStore _ m => indPost m
  | .incb _ => true
  | .incw => true
  | .fclr f => decide (f = .g ∨ f = .flag)
  | .fset f => decide (f = .g ∨ f = .flag)
  | .pop p => decide (p = .hl)
  | v =>
    match v.operand with
    | some o => objPost o
    | none => false

/-- What writes A (10_state.md R21). -/
def View.writesA : View → Bool
  | .alu op _ => !decide (op = .cmp ∨ op = .mtst)
  | .movToA _ => true
  | .movAImm _ => true
  | .imm op _ _ => !decide (op = .cmp ∨ op = .mtst)
  | .bit op _ _ => !decide (op = .btst)
  | .baseN _ _ _ => true
  | .mmov _ _ _ => true
  | .bmov _ _ _ => true
  | .pop p => decide (p = .hl)
  | _ => false

/-- A primary spelling: the decoder answers it (30_encoding.md R146). -/
def View.isPrimary : View → Bool
  | .imm op _ _ => !decide (op = .mclr ∨ op = .mset ∨ op = .mnot)
  | .bit _ _ _ => false
  | .bmov _ _ _ => false
  | .branch b _ => !decide (b = .blt ∨ b = .bge ∨ b = .beq ∨ b = .bne)
  | _ => true

end Sys2Proof

namespace Sys2Proof.Machine

/-- The unassigned first words, as 30_encoding.md R147 lists them. -/
def Unassigned (w : Nat) : Prop :=
  w = 0x000A ∨ (0x001B ≤ w ∧ w ≤ 0x001F) ∨ (0x01D0 ≤ w ∧ w ≤ 0x01FF) ∨
  (0x03C0 ≤ w ∧ w ≤ 0x03FF ∧ 2 ≤ w % 8) ∨ (0x05C0 ≤ w ∧ w ≤ 0x05FF) ∨ (0x07C0 ≤ w ∧ w ≤ 0x07FF)

/-- Nothing is presented at the coming boundary. -/
def Quiet (s : State) : Prop := s.env = [] ∨ ∃ rest, s.env = .quiet :: rest

/-! ## The invariant -/

/-- Every listed address lies in a window. -/
def Memory.within {w : Nat} (lo hi : Nat) (m : Mem w) : Bool := m.all fun e => decide (lo ≤ e.1 ∧ e.1 < hi)

/-- Memories are canonical and list only addresses of their space; data RAM lists only implemented addresses,
external memory only plain storage; and a halted core stands at the NOP after its HALT (48_control.md R461). -/
structure Inv (s : State) : Prop where
  ramWf : Memory.wf s.ram = true
  ramIn : Memory.within 0x100 0x1000 s.ram = true
  ramImplemented : s.ram.all (fun e => s.device.dmImpl.any fun r => r.has e.1) = true
  pmWf : Memory.wf s.pm = true
  pmIn : Memory.within 0 0x10000 s.pm = true
  xmWf : Memory.wf s.xm = true
  xmIn : Memory.within 0 0x10000 s.xm = true
  xmStorage : s.xm.all (fun e => s.device.xmStorage.any fun r => r.has e.1) = true
  haltAtNop : s.halted = true → pmRead s s.pc = some 0

end Sys2Proof.Machine
end

