-- ==== Sys2Proof/Certificates/Slice0/Obligations.lean ====
section
/-! DEFINITION. The statements for the provers. A statement "i.view = …" covers every constructor whose operation is
the one named, in every operand form. -/

open Sys2Proof Sys2Proof.Machine

/-! ## Encoding and decoding -/

/-- Some words written out from 30_encoding.md, one or more of each format, and what they decode to (R122 to R145). -/
def Obligations.SampleWordsDecode : Prop :=
  decode [0x0523] = .ok .adcHlA [] ∧
  decode [0x2F35] = .ok (.mtstSfrA 0x35) [] ∧
  decode [0x3032] = .ok (.incCur 0x32) [] ∧
  decode [0x8510] = .ok (.addCurI 0x10 5) [] ∧
  decode [0xC326] = .ok (.movDirectA 0x326) [] ∧
  decode [0xD234] = .ok (.movADirect 0x234) [] ∧
  decode [0x0740] = .ok (.movEHlIncI 0) [] ∧
  decode [0x063D] = .ok (.sbcjXyN 10) [] ∧
  decode [0x0620] = .ok (.adcjHlN 16) [] ∧
  decode [0x04EA] = .ok (.mmovHl 10 2) [] ∧
  decode [0x0325, 0x0FFE] = .ok (.movlbHlCadr 0x0FFE) [] ∧
  decode [0x03D9, 0x4000] = .ok (.movxbXadrEXyInc 0x4000) [] ∧
  decode [0x0014, 0x0234] = .ok (.ljmp 0x0234) [] ∧
  decode [0xE123] = .ok (.jmp 0x123) [] ∧
  decode [0xF800] = .ok (.cal 0x800) [] ∧
  decode [0x097C] = .ok (.bng 0xFC) [] ∧
  decode [0x08B5] = .ok (.sjmp 0x35) [] ∧
  decode [0x022A] = .ok (.movRa2I 10) [] ∧
  decode [0x0134] = .ok (.movHRegI 4) [] ∧
  decode [0x01C9] = .ok (.movAI 9) [] ∧
  decode [0x0013] = .ok .popXy [] ∧
  decode [0x03E4] = .undefinedOpcode 0x03E4

/-- Decode and encode agree: the words of a well-formed instruction decode to its primary spelling, which is itself
unless it is one of the second spellings of R146, and nothing of the words that follow is lost (R122 to R146). -/
def Obligations.DecodeOfEncode : Prop :=
  ∀ i : Instr, i.wellFormed = true →
    (∀ rest, decode (encode i ++ rest) = .ok i.primary rest) ∧
    (i.view.isPrimary = true → i.primary = i) ∧
    i.primary.view.isPrimary = true ∧ i.primary.wellFormed = true

/-- The other direction: what is decoded is a well-formed primary instruction, whose words are the ones read
(R120, R153). -/
def Obligations.EncodeOfDecode : Prop :=
  ∀ (ws rest : List Word) (i : Instr), decode ws = .ok i rest →
    ws = encode i ++ rest ∧ i.wellFormed = true ∧ i.view.isPrimary = true ∧ (encode i).length = i.words

/-- The unassigned first words are those R147 lists; a step at such a word is refused by name (D11). -/
def Obligations.UnassignedWordsRefused : Prop :=
  (∀ w : Word, openWord w = none ↔ Unassigned w.toNat) ∧
  (∀ (s : State) (w : Word), Quiet s → s.halted = false → pmRead s s.pc = some w → Unassigned w.toNat →
    step s = .refused (.undefinedOpcode w))

/-- R341: an instruction and the primary spelling of its words have one meaning, on every state (D17). -/
def Obligations.SecondSpellingsAgree : Prop :=
  ∀ (i : Instr) (s : State), i.wellFormed = true → exec i s = exec i.primary s

/-! ## The step -/

/-- A step runs the decoded instruction and counts its machine cycles. -/
def Obligations.StepRunsDecoded : Prop :=
  ∀ (s : State) (w a : Word) (i : Instr), Quiet s → s.halted = false → pmRead s s.pc = some w →
    (decode [w] = .ok i [] ∨ (pmRead s (s.pc + 1) = some a ∧ decode [w, a] = .ok i [])) →
    step s = countCycles i.cycles (exec i { s with env := s.env.tail })

/-- The invariant holds after reset. -/
def Obligations.InvAtReset : Prop := Inv State.reset

/-- Every step keeps the invariant: memories stay canonical and inside what the device implements, and a halted core
stands at the NOP after its HALT (R461). -/
def Obligations.InvKept : Prop := ∀ s t : State, Inv s → step s = .next t → Inv t

/-- R71, R106: no step changes program memory, nor the device, and the fetch depends on nothing but `pc` and program
memory. That no step changes the device is the model's choice (log 1); that a system reset keeps program memory
(log 12) is read from R61 and R71. -/
def Obligations.ProgramMemoryConstant : Prop :=
  (∀ s t : State, step s = .next t → t.pm = s.pm ∧ t.device = s.device) ∧
  (∀ (i : Instr) (s t : State), exec i s = .next t → t.pm = s.pm) ∧
  (∀ s t : State, s.pc = t.pc → s.pm = t.pm → fetch s = fetch t)

/-- R103 (c): what devices saw is only added to, in program order. -/
def Obligations.TraceOnlyGrows : Prop :=
  ∀ s t : State, step s = .next t → ∃ new, t.trace = new ++ s.trace

/-- R32, R33, R35: among instructions only calls and returns move SP, only calls write the call stack and only PUSH
writes the register stack. R26: only EI, DI, RTI and RTNMI write MIE; R38: none writes MIE_SAVED; R39: only HALT sets
HALTED. -/
def Obligations.ControlStateWriters : Prop :=
  ∀ (i : Instr) (s t : State), exec i s = .next t →
    (i.view.movesSp = false → t.sp = s.sp ∧ t.cstack = s.cstack) ∧
    (i.view ∈ [View.rt, .rti, .rtnmi] → t.cstack = s.cstack) ∧
    (i.view.isPush = false → t.rstack = s.rstack) ∧
    (i.view.writesMie = false → t.mie = s.mie) ∧ t.mieSaved = s.mieSaved ∧ (i ≠ .halt → t.halted = s.halted)

/-- R21, R23, R24, R25: A, C, Z and G are written by the instructions these rules list alone. -/
def Obligations.FlagWriters : Prop :=
  ∀ (i : Instr) (s t : State), exec i s = .next t →
    (i.view.writesA = false → t.a = s.a) ∧ (i.view.writesC = false → t.c = s.c) ∧
    (i.view.writesZ = false → t.z = s.z) ∧ (i.view.writesG = false → t.g = s.g)

/-! ## Reset, interrupts, halt mode -/

/-- R60: every value the source states for reset, in the model's reset state and after a system reset, and what the
core's registers then read as at their data addresses. -/
def Obligations.ResetValues : Prop :=
  ∀ s : State, ∀ t ∈ [State.reset, systemReset s],
    t.a = 0 ∧ t.c = false ∧ t.z = false ∧ t.mie = false ∧ t.h = 0 ∧ t.l = 0 ∧ t.x = 0 ∧ t.y = 0 ∧ t.cbr = 0 ∧
    t.ebr = 0 ∧ t.ra0 = 0 ∧ t.ra1 = 0 ∧ t.ra2 = 0 ∧ t.ra3 = 0 ∧ t.pc = 0 ∧ t.sp = 0 ∧ t.rsp = 0 ∧
    pairValue .hl t = 0 ∧ pairValue .xy t = 0 ∧
    dmValue t 0x0F7 = 0 ∧ dmValue t 0x0F8 = 0xE ∧ dmValue t 0x0FF = 0xE

/-- R550, R551: a reset input overrides everything, also in halt mode; program memory and the device stay. That the
schedule goes on and the counters stay is the model's choice (log 12). -/
def Obligations.SystemResetStep : Prop :=
  ∀ (s : State) (e : Stimulus) (rest : List Stimulus), s.env = e :: rest → e.reset = true →
    ∃ t, step s = .next t ∧
      t.a = 0 ∧ t.c = false ∧ t.z = false ∧ t.mie = false ∧ (∀ r, coreRegValue r t = coreRegValue r State.reset) ∧
      t.pc = 0 ∧ t.sp = 0 ∧ t.halted = false ∧ t.ram = [] ∧ t.pm = s.pm ∧ t.device = s.device ∧ t.env = rest

/-- R505, R506: with MIE = 1 and no non-maskable request, a maskable request is accepted at the boundary: the restart
address minus one is saved, SP counts up, MIE is cleared, the routine starts, and nothing else changes but HALTED,
which `HALT_WAKE` may have released first (R521; D18, D31, D36). -/
def Obligations.MaskableEntry : Prop :=
  ∀ (s : State) (e : Stimulus) (rest : List Stimulus) (v : StartAddress), s.env = e :: rest → e.reset = false →
    e.nmi = none → e.irq = some v → s.mie = true → (s.halted = false ∨ e.wake = true) →
    ∃ t, step s = .next t ∧
      t = { s with env := rest, halted := false, mie := false, pc := BitVec.ofNat 16 (v.val + 1), sp := s.sp + 1,
                   cstack := t.cstack } ∧
      ∀ k, callSlot t k = if k = s.sp then s.pc - 1 else callSlot s k

/-- R505, R507, R509: a non-maskable request is accepted whatever MIE is and before a maskable one, and MIE goes to
MIE_SAVED (D32, D33). -/
def Obligations.NonMaskableEntry : Prop :=
  ∀ (s : State) (e : Stimulus) (rest : List Stimulus) (v : StartAddress), s.env = e :: rest → e.reset = false →
    e.nmi = some v → (s.halted = false ∨ e.wake = true) →
    ∃ t, step s = .next t ∧
      t = { s with env := rest, halted := false, mieSaved := s.mie, mie := false,
                   pc := BitVec.ofNat 16 (v.val + 1), sp := s.sp + 1, cstack := t.cstack } ∧
      ∀ k, callSlot t k = if k = s.sp then s.pc - 1 else callSlot s k

/-- R505: with MIE = 0 a maskable request is not accepted: the boundary is as if it were not presented. -/
def Obligations.MaskedRequestWaits : Prop :=
  ∀ (s : State) (e : Stimulus) (rest : List Stimulus), s.env = e :: rest → s.mie = false →
    step s = step { s with env := { e with irq := none } :: rest }

/-- R520, R521: while HALTED = 1 and nothing wakes the core or resets it, a step changes nothing but the schedule,
whatever requests are presented; a core that is woken with no request presented executes the instruction at `pc`. The
step of a halted core is the model's choice (log 28, D43), and so is the schedule (log 11, D35, D41); that the release
comes first is D36 (log 31). -/
def Obligations.HaltModeStep : Prop :=
  (∀ s : State, s.halted = true → (∀ e ∈ s.env.head?, e.reset = false ∧ e.wake = false) →
    step s = .next { s with env := s.env.tail }) ∧
  (∀ (s : State) (e : Stimulus) (rest : List Stimulus), s.env = e :: rest → e.reset = false → e.wake = true →
    e.nmi = none → e.irq = none → step s = execute { s with env := rest, halted := false })

/-- R506, R507, R510: RTI after a maskable entry, and RTNMI after a non-maskable one, resume at the restart address
with SP and MIE as they were, from every state that still has the call stack of the entry, and MIE_SAVED (D18, D33). -/
def Obligations.ReturnsResume : Prop :=
  ∀ (s u : State) (v : StartAddress), s.halted = false →
    (s.mie = true → u.cstack = (acceptIrq v s).cstack → u.sp = (acceptIrq v s).sp →
      ∃ t, exec .rti u = .next t ∧ t.pc = s.pc ∧ t.sp = s.sp ∧ t.mie = s.mie) ∧
    (u.cstack = (acceptNmi v s).cstack → u.sp = (acceptNmi v s).sp → u.mieSaved = (acceptNmi v s).mieSaved →
      ∃ t, exec .rtnmi u = .next t ∧ t.pc = s.pc ∧ t.sp = s.sp ∧ t.mie = s.mie)

/-! ## Data memory and its addresses -/

/-- R83 to R88: the address of each operand form, the high nibble being the bank, then the first register of the pair
(D1); and R81: the address of "obj+1" of an 8-bit transfer, the next offset of the bank, and at the pair 0FFH
what `OBJ1_CARRY` says. That the next bank after bank 15 is bank 0 is the model's choice (log 14). -/
def Obligations.OperandAddresses : Prop :=
  ∀ (s : State) (a : DataAddr) (r : Byte) (m : Ind),
    objAddr (.direct a) s = a ∧
    (objAddr (.sfr r) s).toNat = r.toNat ∧
    (objAddr (.cur r) s).toNat = 256 * s.cbr.toNat + r.toNat ∧
    (∀ m ∈ [Ind.hl, .hlInc], (objAddr (.ind m) s).toNat = 256 * s.cbr.toNat + 16 * s.h.toNat + s.l.toNat) ∧
    (∀ m ∈ [Ind.xy, .xyInc], (objAddr (.ind m) s).toNat = 256 * s.cbr.toNat + 16 * s.x.toNat + s.y.toNat) ∧
    (∀ m ∈ [Ind.eHl, .eHlInc], (objAddr (.ind m) s).toNat = 256 * s.ebr.toNat + 16 * s.h.toNat + s.l.toNat) ∧
    (∀ m ∈ [Ind.eXy, .eXyInc], (objAddr (.ind m) s).toNat = 256 * s.ebr.toNat + 16 * s.x.toNat + s.y.toNat) ∧
    (pairValue (indPair m) s ≠ 255 → (indAddr1 m s).toNat = (indAddr m s).toNat + 1) ∧
    (pairValue (indPair m) s = 255 → s.device.obj1Carry = .sameBank →
      (indAddr1 m s).toNat = 256 * (bankValue (indBank m) s).toNat) ∧
    (pairValue (indPair m) s = 255 → s.device.obj1Carry = .nextBank →
      (indAddr1 m s).toNat = 256 * (((bankValue (indBank m) s).toNat + 1) % 16))

/-- R76, R78: what a read of data memory gives after a write: data RAM and the writable registers hold the nibble, SPL,
SPH and MIEF what they held (D6), and every other register and RAM location what it held. -/
def Obligations.DataMemoryReadsAfterWrite : Prop :=
  ∀ (s : State) (a b : DataAddr) (v : Nibble), 0xF2 ≤ b.toNat →
    dmValue (dmStore s a v) b =
      if b = a ∧ b.toNat ≠ 0xF7 ∧ b.toNat ≠ 0xF8 ∧ b.toNat ≠ 0xFF then v else dmValue s b

/-! ## Transfer (40_transfer.md) -/

/-- MOV A, obj (R200) and MOV obj, A (R202), which reads nothing. -/
def Obligations.MovRuns : Prop :=
  ∀ (i : Instr) (o : MovObj) (s : State), Ready (movObj o) s →
    (i.view = .movToA o → ∃ t, exec i s = .next t ∧ t.a = dmValue s (objAddr (movObj o) s) ∧
      t.z = decide (t.a.toNat = 0) ∧ t.c = s.c ∧ DataEffect (movObj o) true none s t) ∧
    (i.view = .movFromA o → ∃ t, exec i s = .next t ∧ t.a = s.a ∧ t.z = s.z ∧ t.c = s.c ∧
      DataEffect (movObj o) false (some s.a) s t)

/-- MOV A, #i4 (R201): its word, words and cycles, and its whole effect, on either core. -/
def Obligations.MovImmediateToARuns : Prop :=
  ∀ (y : Nibble) (s : State),
    encode (.movAI y) = [0x01C#12 ++ y] ∧ (Instr.movAI y).words = 1 ∧ (Instr.movAI y).cycles = 1 ∧
    (∀ c, (Instr.movAI y).providedOn c = true) ∧
    exec (.movAI y) s = .next { s with a := y, z := decide (y.toNat = 0), pc := s.pc + 1 }

/-- MOV obj, #i4 (R203): A is written as well, and nothing is read. -/
def Obligations.MovImmediateRuns : Prop :=
  ∀ (i : Instr) (o : ImmObj) (y : Nibble) (s : State), i.view = .imm .mov o y → Ready (immObj o) s →
    ∃ t, exec i s = .next t ∧ t.a = y ∧ t.z = decide (y.toNat = 0) ∧ t.c = s.c ∧
      DataEffect (immObj o) false (some y) s t

/-- XCH A, obj (R204): no flag but G in a post-increment form. -/
def Obligations.ExchangeRuns : Prop :=
  ∀ (i : Instr) (o : AluObj) (s : State), i.view = .alu .xch o → Ready (aluObj o) s →
    ∃ t, exec i s = .next t ∧ t.a = dmValue s (objAddr (aluObj o) s) ∧ t.z = s.z ∧ t.c = s.c ∧
      DataEffect (aluObj o) true (some s.a) s t

/-! ## Rotates, increments, decrements (41_rotate_incdec.md) -/

/-- ROL obj and ROR obj (R230, R231): a rotation of five bits through C. -/
def Obligations.RotatesRun : Prop :=
  ∀ (i : Instr) (o : AluObj) (s : State), Ready (aluObj o) s →
    let v := (dmValue s (objAddr (aluObj o) s)).toNat
    (i.view = .alu .rol o → ∃ t, exec i s = .next t ∧ t.a.toNat = (2 * v + s.c.toNat) % 16 ∧
      t.z = decide (t.a.toNat = 0) ∧ t.c = decide (8 ≤ v) ∧ DataEffect (aluObj o) true (some t.a) s t) ∧
    (i.view = .alu .ror o → ∃ t, exec i s = .next t ∧ t.a.toNat = v / 2 + 8 * s.c.toNat ∧
      t.z = decide (t.a.toNat = 0) ∧ t.c = decide (v % 2 = 1) ∧ DataEffect (aluObj o) true (some t.a) s t)

/-- INC obj and DEC obj (R232, R233). -/
def Obligations.IncrementDecrementRun : Prop :=
  ∀ (i : Instr) (o : AluObj) (s : State), Ready (aluObj o) s →
    let v := (dmValue s (objAddr (aluObj o) s)).toNat
    (i.view = .alu .inc o → ∃ t, exec i s = .next t ∧ t.a.toNat = (v + 1) % 16 ∧ t.z = decide (v = 15) ∧
      t.c = decide (v = 15) ∧ DataEffect (aluObj o) true (some t.a) s t) ∧
    (i.view = .alu .dec o → ∃ t, exec i s = .next t ∧ t.a.toNat = (v + 15) % 16 ∧ t.z = decide (v = 1) ∧
      t.c = decide (v = 0) ∧ DataEffect (aluObj o) true (some t.a) s t)

/-- INCB HL and INCB XY (R234), INCW RA (R235): words, cycles and whole effect, on either core; the pair counts up as
one byte, RA as one word, and G says whether it wrapped. That H and X are the high nibbles is D1 (log 16), a choice of
the spec. -/
def Obligations.PairAndRaIncrementsRun : Prop :=
  ∀ s : State,
    encode .incbHl = [0x0018] ∧ encode .incbXy = [0x0019] ∧ encode .incwRa = [0x001A] ∧
    (∀ i ∈ [Instr.incbHl, .incbXy, .incwRa], i.words = 1 ∧ i.cycles = 1 ∧ ∀ c, i.providedOn c = true) ∧
    (∃ t, exec .incbHl s = .next t ∧ t = { s with h := t.h, l := t.l, g := t.g, pc := s.pc + 1 } ∧
      16 * t.h.toNat + t.l.toNat = (16 * s.h.toNat + s.l.toNat + 1) % 256 ∧
      t.g = decide (s.h.toNat = 15 ∧ s.l.toNat = 15)) ∧
    (∃ t, exec .incbXy s = .next t ∧ t = { s with x := t.x, y := t.y, g := t.g, pc := s.pc + 1 } ∧
      16 * t.x.toNat + t.y.toNat = (16 * s.x.toNat + s.y.toNat + 1) % 256 ∧
      t.g = decide (s.x.toNat = 15 ∧ s.y.toNat = 15)) ∧
    (∃ t, exec .incwRa s = .next t ∧
      t = { s with ra0 := t.ra0, ra1 := t.ra1, ra2 := t.ra2, ra3 := t.ra3, g := t.g, pc := s.pc + 1 } ∧
      4096 * t.ra3.toNat + 256 * t.ra2.toNat + 16 * t.ra1.toNat + t.ra0.toNat =
        (4096 * s.ra3.toNat + 256 * s.ra2.toNat + 16 * s.ra1.toNat + s.ra0.toNat + 1) % 65536 ∧
      t.g = decide (4096 * t.ra3.toNat + 256 * t.ra2.toNat + 16 * t.ra1.toNat + t.ra0.toNat = 0))

/-! ## Arithmetic (42_arithmetic.md) -/

/-- ADD obj, A and ADC obj, A (R260, R262; Z by R270). -/
def Obligations.AddRuns : Prop :=
  ∀ (i : Instr) (o : AluObj) (s : State), Ready (aluObj o) s →
    let v := (dmValue s (objAddr (aluObj o) s)).toNat
    (i.view = .alu .add o → ∃ t, exec i s = .next t ∧ t.a.toNat = (v + s.a.toNat) % 16 ∧
      t.z = decide (t.a.toNat = 0) ∧ t.c = decide (15 < v + s.a.toNat) ∧
      DataEffect (aluObj o) true (some t.a) s t) ∧
    (i.view = .alu .adc o → ∃ t, exec i s = .next t ∧ t.a.toNat = (v + s.a.toNat + s.c.toNat) % 16 ∧
      t.z = decide (t.a.toNat = 0) ∧ t.c = decide (15 < v + s.a.toNat + s.c.toNat) ∧
      DataEffect (aluObj o) true (some t.a) s t)

/-- ADD obj, #i4 and SUB obj, #i4 (R261, R266; Z by R270): the old A is no input. -/
def Obligations.AddSubtractImmediateRun : Prop :=
  ∀ (i : Instr) (o : ImmObj) (y : Nibble) (s : State), Ready (immObj o) s →
    let v := (dmValue s (objAddr (immObj o) s)).toNat
    (i.view = .imm .add o y → ∃ t, exec i s = .next t ∧ t.a.toNat = (v + y.toNat) % 16 ∧
      t.z = decide (t.a.toNat = 0) ∧ t.c = decide (15 < v + y.toNat) ∧ DataEffect (immObj o) true (some t.a) s t) ∧
    (i.view = .imm .sub o y → ∃ t, exec i s = .next t ∧ t.a.toNat = (v + 16 - y.toNat) % 16 ∧
      t.z = decide (t.a.toNat = 0) ∧ t.c = decide (v < y.toNat) ∧ DataEffect (immObj o) true (some t.a) s t)

/-- SUB obj, A and SBC obj, A (R265, R267; Z by R270): C is the borrow. -/
def Obligations.SubtractRuns : Prop :=
  ∀ (i : Instr) (o : AluObj) (s : State), Ready (aluObj o) s →
    let v := (dmValue s (objAddr (aluObj o) s)).toNat
    (i.view = .alu .sub o → ∃ t, exec i s = .next t ∧ t.a.toNat = (v + 16 - s.a.toNat) % 16 ∧
      t.z = decide (t.a.toNat = 0) ∧ t.c = decide (v < s.a.toNat) ∧ DataEffect (aluObj o) true (some t.a) s t) ∧
    (i.view = .alu .sbc o → ∃ t, exec i s = .next t ∧ t.a.toNat = (v + 16 - (s.a.toNat + s.c.toNat)) % 16 ∧
      t.z = decide (t.a.toNat = 0) ∧ t.c = decide (v < s.a.toNat + s.c.toNat) ∧
      DataEffect (aluObj o) true (some t.a) s t)

/-- ADCD obj, A and SBCD obj, A (R263, R268; D16): one digit of decimal addition and subtraction, for every
operand. -/
def Obligations.DecimalRuns : Prop :=
  ∀ (i : Instr) (o : AluObj) (s : State), Ready (aluObj o) s →
    let v := (dmValue s (objAddr (aluObj o) s)).toNat
    let n := s.a.toNat + s.c.toNat
    (i.view = .alu .adcd o → ∃ t, exec i s = .next t ∧ t.a.toNat = (if 9 < v + n then (v + n + 6) % 16 else v + n) ∧
      t.z = decide (t.a.toNat = 0) ∧ t.c = decide (9 < v + n) ∧ DataEffect (aluObj o) true (some t.a) s t) ∧
    (i.view = .alu .sbcd o → ∃ t, exec i s = .next t ∧ t.a.toNat = (if v < n then (v + 26 - n) % 16 else v - n) ∧
      t.z = decide (t.a.toNat = 0) ∧ t.c = decide (v < n) ∧ DataEffect (aluObj o) true (some t.a) s t)

/-- ADCJ obj, n and SBCJ obj, n (R264, R269; D14, D15): the carry into, and the borrow out of, one base-n digit. A is
no input. -/
def Obligations.BaseAdjustRuns : Prop :=
  ∀ (i : Instr) (o : ImmObj) (n : Nat) (s : State), i.wellFormed = true → Ready (immObj o) s →
    let v := (dmValue s (objAddr (immObj o) s)).toNat
    (i.view = .baseN .adcj o n → ∃ t, exec i s = .next t ∧
      t.a.toNat = (if n ≤ v + s.c.toNat then v + s.c.toNat - n else v + s.c.toNat) ∧
      t.z = decide (t.a.toNat = 0) ∧ t.c = decide (n ≤ v + s.c.toNat) ∧
      DataEffect (immObj o) true (some t.a) s t) ∧
    (i.view = .baseN .sbcj o n → ∃ t, exec i s = .next t ∧
      t.a.toNat = (if v < s.c.toNat then n - 1 else v - s.c.toNat) ∧
      t.z = decide (t.a.toNat = 0) ∧ t.c = decide (v < s.c.toNat) ∧
      DataEffect (immObj o) true (some t.a) s t)

/-! ## Comparison and logic (43_compare_logical.md) -/

/-- CMP obj, A and CMP obj, #i4 (R300, R301): the flags of the unsigned comparison; nothing is written. -/
def Obligations.CompareRuns : Prop :=
  (∀ (i : Instr) (o : AluObj) (s : State), i.view = .alu .cmp o → Ready (aluObj o) s →
    let v := (dmValue s (objAddr (aluObj o) s)).toNat
    ∃ t, exec i s = .next t ∧ t.a = s.a ∧ t.z = decide (v = s.a.toNat) ∧ t.c = decide (v < s.a.toNat) ∧
      DataEffect (aluObj o) true none s t) ∧
  (∀ (i : Instr) (o : ImmObj) (y : Nibble) (s : State), i.view = .imm .cmp o y → Ready (immObj o) s →
    let v := (dmValue s (objAddr (immObj o) s)).toNat
    ∃ t, exec i s = .next t ∧ t.a = s.a ∧ t.z = decide (v = y.toNat) ∧ t.c = decide (v < y.toNat) ∧
      DataEffect (immObj o) true none s t)

/-- AND, OR and XOR obj, A (R302, R304, R306), bit by bit; C is unchanged. -/
def Obligations.LogicalRuns : Prop :=
  ∀ (i : Instr) (op : AluOp) (o : AluObj) (s : State), i.view = .alu op o → op ∈ [AluOp.and, .or, .xor] →
    Ready (aluObj o) s →
    let v := dmValue s (objAddr (aluObj o) s)
    ∃ t, exec i s = .next t ∧
      (∀ k : Fin 4, t.a.getLsbD k =
        if op = .and then v.getLsbD k && s.a.getLsbD k
        else if op = .or then v.getLsbD k || s.a.getLsbD k
        else v.getLsbD k ^^ s.a.getLsbD k) ∧
      t.z = decide (t.a.toNat = 0) ∧ t.c = s.c ∧ DataEffect (aluObj o) true (some t.a) s t

/-- AND, OR and XOR obj, #i4 (R303, R305, R307) and MCLR, MSET and MNOT obj, #m (R332 to R334), bit by bit; C is
unchanged. A 1 of MCLR's mask keeps the bit. -/
def Obligations.LogicalImmediateRuns : Prop :=
  ∀ (i : Instr) (op : ImmOp) (o : ImmObj) (y : Nibble) (s : State), i.view = .imm op o y →
    op ∈ [ImmOp.and, .mclr, .or, .mset, .xor, .mnot] → Ready (immObj o) s →
    let v := dmValue s (objAddr (immObj o) s)
    ∃ t, exec i s = .next t ∧
      (∀ k : Fin 4, t.a.getLsbD k =
        if op = .and ∨ op = .mclr then v.getLsbD k && y.getLsbD k
        else if op = .or ∨ op = .mset then v.getLsbD k || y.getLsbD k
        else v.getLsbD k ^^ y.getLsbD k) ∧
      t.z = decide (t.a.toNat = 0) ∧ t.c = s.c ∧ DataEffect (immObj o) true (some t.a) s t

/-! ## Masks and bits (44_mask_bit.md) -/

/-- MTST obj, A, MTST obj, #m and BTST obj.n (R330, R331, R336): Z says that a tested bit is 0; nothing is written. -/
def Obligations.BitTestsRun : Prop :=
  (∀ (i : Instr) (o : AluObj) (s : State), i.view = .alu .mtst o → Ready (aluObj o) s →
    ∃ t, exec i s = .next t ∧ t.a = s.a ∧ t.c = s.c ∧ DataEffect (aluObj o) true none s t ∧
      (t.z = true ↔
        ∃ k : Fin 4, s.a.getLsbD k = true ∧ (dmValue s (objAddr (aluObj o) s)).getLsbD k = false)) ∧
  (∀ (i : Instr) (o : ImmObj) (m : Nibble) (s : State), i.view = .imm .mtst o m → Ready (immObj o) s →
    ∃ t, exec i s = .next t ∧ t.a = s.a ∧ t.c = s.c ∧ DataEffect (immObj o) true none s t ∧
      (t.z = true ↔
        ∃ k : Fin 4, m.getLsbD k = true ∧ (dmValue s (objAddr (immObj o) s)).getLsbD k = false)) ∧
  (∀ (i : Instr) (o : ImmObj) (n : Fin 4) (s : State), i.view = .bit .btst o n → Ready (immObj o) s →
    ∃ t, exec i s = .next t ∧ t.a = s.a ∧ t.c = s.c ∧ DataEffect (immObj o) true none s t ∧
      t.z = !(dmValue s (objAddr (immObj o) s)).getLsbD n)

/-- BCLR, BSET and BNOT obj.n (R337 to R339): the one bit is cleared, set or reversed, and Z is that of the whole
nibble, for BSET too (D17). -/
def Obligations.BitWritesRun : Prop :=
  ∀ (i : Instr) (op : BitOp) (o : ImmObj) (n : Fin 4) (s : State), i.view = .bit op o n →
    op ∈ [BitOp.bclr, .bset, .bnot] → Ready (immObj o) s →
    let v := dmValue s (objAddr (immObj o) s)
    ∃ t, exec i s = .next t ∧
      (∀ k : Fin 4, t.a.getLsbD k =
        if k = n then (if op = .bclr then false else if op = .bset then true else !v.getLsbD k) else v.getLsbD k) ∧
      t.z = decide (t.a.toNat = 0) ∧ t.c = s.c ∧ DataEffect (immObj o) true (some t.a) s t

/-- MMOV obj, #m, A.n and BMOV obj.k, A.n on the nX-4/300 (R335, R340; D19): bit n of A goes to the bits the mask
marks. -/
def Obligations.BitMovesRun : Prop :=
  ∀ (i : Instr) (f : IndFixed) (m : Nibble) (j n : Fin 4) (s : State), s.device.core = .nx300 →
    Ready (.ind f.toInd) s →
    let v := dmValue s (objAddr (.ind f.toInd) s)
    (i.view = .mmov f m n → ∃ t, exec i s = .next t ∧
      (∀ k : Fin 4, t.a.getLsbD k = if m.getLsbD k then s.a.getLsbD n else v.getLsbD k) ∧
      t.z = decide (t.a.toNat = 0) ∧ t.c = s.c ∧ DataEffect (.ind f.toInd) true (some t.a) s t) ∧
    (i.view = .bmov f j n → ∃ t, exec i s = .next t ∧
      (∀ k : Fin 4, t.a.getLsbD k = if k = j then s.a.getLsbD n else v.getLsbD k) ∧
      t.z = decide (t.a.toNat = 0) ∧ t.c = s.c ∧ DataEffect (.ind f.toInd) true (some t.a) s t)

/-! ## The 8-bit transfers (45_rom_ext_transfer.md) -/

/-- MOVHB and MOVLB (R370 to R373, R378): the high or the low byte of the program memory word. -/
def Obligations.RomTransfersRun : Prop :=
  ∀ (i : Instr) (h : Half) (m : Ind) (f : FarAddr) (w : Word) (s : State), i.view = .rom h m f → ReadyByte m s →
    pmRead s (match f with | .ra => s.ra3 ++ s.ra2 ++ s.ra1 ++ s.ra0 | .adr a => a) = some w →
    ∃ t b, exec i s = .next t ∧ b.toNat = (match h with | .hb => w.toNat / 256 | .lb => w.toNat % 256) ∧
      LoadEffect m i.words b [] s t

/-- MOVXB to data memory (R374, R375, R378): the byte plain storage holds, or the one a device answers. -/
def Obligations.ExternalLoadsRun : Prop :=
  ∀ (i : Instr) (m : Ind) (f : FarAddr) (s : State), i.view = .xmLoad m f → ReadyByte m s →
    let x := match f with | .ra => s.ra3 ++ s.ra2 ++ s.ra1 ++ s.ra0 | .adr a => a
    ∃ t b, exec i s = .next t ∧ LoadEffect m i.words b [.xmRead x] s t ∧
      (∀ c, xmIsStorage s x = true → Memory.read s.xm x.toNat = some c → b = c)

/-- MOVXB to external memory (R376, R377, R378): the byte is "obj+1" : "obj". -/
def Obligations.ExternalStoresRun : Prop :=
  ∀ (i : Instr) (m : Ind) (f : FarAddr) (s : State), i.view = .xmStore f m → ReadyByte m s →
    ∃ t, exec i s = .next t ∧
      StoreEffect m i.words (match f with | .ra => s.ra3 ++ s.ra2 ++ s.ra1 ++ s.ra0 | .adr a => a) s t

/-! ## The register stack and the flags (46_stack_flag.md) -/

/-- PUSH HL and PUSH XY (R400, R401; D7, D9): the word goes to the slot at RSP, RSP counts up, nothing else changes. -/
def Obligations.PushRuns : Prop :=
  ∀ s : State,
    (∃ t, exec .pushHl s = .next t ∧ t = { s with rsp := s.rsp + 1, pc := s.pc + 1, rstack := t.rstack } ∧
      ∀ k, regSlot t k = if k = s.rsp then flagPack s.z s.c s.g ++ s.a ++ s.h ++ s.l else regSlot s k) ∧
    (∃ t, exec .pushXy s = .next t ∧ t = { s with rsp := s.rsp + 1, pc := s.pc + 1, rstack := t.rstack } ∧
      ∀ k, regSlot t k = if k = s.rsp then s.ebr ++ s.cbr ++ s.x ++ s.y else regSlot s k)

/-- POP HL and POP XY (R402, R403; D7, D9, D10): RSP counts down, and the slot at the new RSP is restored. -/
def Obligations.PopRuns : Prop :=
  ∀ s : State,
    let w := (regSlot s (s.rsp - 1)).toNat
    (∃ t, exec .popHl s = .next t ∧
      t = { s with rsp := s.rsp - 1, pc := s.pc + 1, z := t.z, c := t.c, g := t.g, a := t.a, h := t.h, l := t.l } ∧
      (t.z, t.c, t.g) = flagUnpack (BitVec.ofNat 4 (w / 4096)) ∧ t.a.toNat = w / 256 % 16 ∧
      t.h.toNat = w / 16 % 16 ∧ t.l.toNat = w % 16) ∧
    (∃ t, exec .popXy s = .next t ∧
      t = { s with rsp := s.rsp - 1, pc := s.pc + 1, ebr := t.ebr, cbr := t.cbr, x := t.x, y := t.y } ∧
      t.ebr.toNat = w / 4096 ∧ t.cbr.toNat = w / 256 % 16 ∧ t.x.toNat = w / 16 % 16 ∧ t.y.toNat = w % 16)

/-- R36, R402, R403: a POP from a state that still has the register stack and RSP of the matching PUSH restores what
was pushed, whatever FLAGPACK is (D8). -/
def Obligations.PopUndoesPush : Prop :=
  ∀ s u : State,
    (∀ t, exec .pushHl s = .next t → u.rstack = t.rstack → u.rsp = t.rsp →
      ∃ w, exec .popHl u = .next w ∧ w.z = s.z ∧ w.c = s.c ∧ w.g = s.g ∧ w.a = s.a ∧ w.h = s.h ∧ w.l = s.l ∧
        w.rsp = s.rsp) ∧
    (∀ t, exec .pushXy s = .next t → u.rstack = t.rstack → u.rsp = t.rsp →
      ∃ w, exec .popXy u = .next w ∧ w.ebr = s.ebr ∧ w.cbr = s.cbr ∧ w.x = s.x ∧ w.y = s.y ∧ w.rsp = s.rsp)

/-- FCLR and FSET of C, Z, G and FLAG (R404 to R411): words, cycles and whole effect, on either core; FCLR FLAG and
FSET FLAG are the nX-4/300's alone; refusing them on the nX-4/250 is D12 (log 22), a choice of the spec. -/
def Obligations.FlagInstructionsRun : Prop :=
  ∀ s : State,
    exec .fclrC s = .next { s with c := false, pc := s.pc + 1 } ∧
    exec .fclrZ s = .next { s with z := false, pc := s.pc + 1 } ∧
    exec .fclrG s = .next { s with g := false, pc := s.pc + 1 } ∧
    exec .fsetC s = .next { s with c := true, pc := s.pc + 1 } ∧
    exec .fsetZ s = .next { s with z := true, pc := s.pc + 1 } ∧
    exec .fsetG s = .next { s with g := true, pc := s.pc + 1 } ∧
    (s.device.core = .nx300 →
      exec .fclrFlag s = .next { s with z := false, c := false, g := false, pc := s.pc + 1 } ∧
      exec .fsetFlag s = .next { s with z := true, c := true, g := true, pc := s.pc + 1 }) ∧
    (s.device.core = .nx250 →
      exec .fclrFlag s = .refused .notProvidedOn250 ∧ exec .fsetFlag s = .refused .notProvidedOn250) ∧
    encode .fclrC = [0x0003] ∧ encode .fclrZ = [0x0004] ∧ encode .fclrG = [0x0002] ∧ encode .fclrFlag = [0x0005] ∧
    encode .fsetC = [0x0007] ∧ encode .fsetZ = [0x0008] ∧ encode .fsetG = [0x0006] ∧ encode .fsetFlag = [0x0009] ∧
    (∀ i ∈ [Instr.fclrC, .fclrZ, .fclrG, .fsetC, .fsetZ, .fsetG],
      i.words = 1 ∧ i.cycles = 1 ∧ ∀ c, i.providedOn c = true) ∧
    ∀ i ∈ [Instr.fclrFlag, .fsetFlag], i.words = 1 ∧ i.cycles = 1 ∧ ∀ c, i.providedOn c = decide (c = .nx300)

/-! ## Branches, calls, returns (47_branch_call.md) -/

/-- LJMP, JMP, SJMP and JMP PC+A (R420 to R423; D2, D13): only the program counter changes. -/
def Obligations.JumpsRun : Prop :=
  ∀ (s : State) (w : Word) (a : BitVec 12) (d : Byte),
    exec (.ljmp w) s = .next { s with pc := w } ∧
    (∃ t, exec (.jmp a) s = .next t ∧ t = { s with pc := t.pc } ∧
      t.pc.toNat = s.pc.toNat / 4096 * 4096 + a.toNat) ∧
    (∃ t, exec (.sjmp d) s = .next t ∧ t = { s with pc := t.pc } ∧
      (t.pc.toNat : Int) = (s.pc.toNat + 1 + d.toInt) % 65536) ∧
    (∃ t, exec .jmpPcA s = .next t ∧ t = { s with pc := t.pc } ∧
      t.pc.toNat = (s.pc.toNat + 1 + s.a.toNat) % 65536)

/-- The conditional branches (R424 to R430, R436; D2): taken exactly on their condition, and only the program counter
changes. -/
def Obligations.BranchesRun : Prop :=
  ∀ (i : Instr) (b : Cond) (d : Byte) (s : State), i.view = .branch b d →
    ∃ t, exec i s = .next t ∧ t = { s with pc := t.pc } ∧
      (let taken : Prop := match b with
        | .bng => s.g = false
        | .bc => s.c = true
        | .blt => s.c = true
        | .bnc => s.c = false
        | .bge => s.c = false
        | .bz => s.z = true
        | .beq => s.z = true
        | .bnz => s.z = false
        | .bne => s.z = false
        | .ble => s.c = true ∨ s.z = true
        | .bgt => s.c = false ∧ s.z = false
       (taken → (t.pc.toNat : Int) = (s.pc.toNat + 1 + d.toInt) % 65536) ∧
       (¬ taken → t.pc.toNat = (s.pc.toNat + 1) % 65536))

/-- LCAL and CAL (R431, R432; D9, D13, D18): the address of the instruction's last word is saved, SP counts up, and
nothing else changes. -/
def Obligations.CallsRun : Prop :=
  ∀ (s : State) (w : Word) (a : BitVec 12),
    (∃ t, exec (.lcal w) s = .next t ∧ t = { s with pc := w, sp := s.sp + 1, cstack := t.cstack } ∧
      ∀ k, callSlot t k = if k = s.sp then s.pc + 1 else callSlot s k) ∧
    (∃ t, exec (.cal a) s = .next t ∧ t = { s with pc := t.pc, sp := s.sp + 1, cstack := t.cstack } ∧
      t.pc.toNat = s.pc.toNat / 4096 * 4096 + a.toNat ∧
      ∀ k, callSlot t k = if k = s.sp then s.pc else callSlot s k)

/-- RT, RTI and RTNMI (R433 to R435; D9, D10): SP counts down, the slot at the new SP plus one is the program counter,
and MIE is as each rule says. -/
def Obligations.ReturnsRun : Prop :=
  ∀ s : State,
    exec .rt s = .next { s with sp := s.sp - 1, pc := callSlot s (s.sp - 1) + 1 } ∧
    exec .rti s = .next { s with sp := s.sp - 1, pc := callSlot s (s.sp - 1) + 1, mie := true } ∧
    exec .rtnmi s = .next { s with sp := s.sp - 1, pc := callSlot s (s.sp - 1) + 1, mie := s.mieSaved }

/-- R431 to R433: RT from a state that still has the call stack and SP of the call goes to the instruction after the
call (D10, D18). -/
def Obligations.ReturnAfterCall : Prop :=
  ∀ (s u : State) (w : Word) (a : BitVec 12),
    (∀ t, exec (.lcal w) s = .next t → u.cstack = t.cstack → u.sp = t.sp →
      ∃ r, exec .rt u = .next r ∧ r.pc = s.pc + 2 ∧ r.sp = s.sp) ∧
    (∀ t, exec (.cal a) s = .next t → u.cstack = t.cstack → u.sp = t.sp →
      ∃ r, exec .rt u = .next r ∧ r.pc = s.pc + 1 ∧ r.sp = s.sp)

/-! ## Control (48_control.md) -/

/-- NOP (R460): its word, words and cycles, and its whole effect, on either core; EI and DI (R462, R463): MIE alone. -/
def Obligations.NopEiDiRun : Prop :=
  ∀ s : State,
    encode .nop = [0x0000] ∧ Instr.nop.words = 1 ∧ Instr.nop.cycles = 1 ∧ (∀ c, Instr.nop.providedOn c = true) ∧
    exec .nop s = .next { s with pc := s.pc + 1 } ∧
    exec .ei s = .next { s with mie := true, pc := s.pc + 1 } ∧
    exec .di s = .next { s with mie := false, pc := s.pc + 1 }

/-- HALT (R461, R560; D42): with a NOP after it, halt mode is entered and the program counter is at the NOP; with another
word after it, it is refused. -/
def Obligations.HaltRuns : Prop :=
  ∀ s : State,
    (pmRead s (s.pc + 1) = some 0 → exec .halt s = .next { s with halted := true, pc := s.pc + 1 }) ∧
    (∀ w, pmRead s (s.pc + 1) = some w → w ≠ 0 → exec .halt s = .refused .haltNotFollowedByNop)

/-- MSA (R464, R563; D40): the melody circuit is told the address, and the core's state is unchanged but for the program
counter; without a melody circuit it is refused. -/
def Obligations.MelodyStartRuns : Prop :=
  ∀ (s : State) (w : Word),
    (s.device.melody = true →
      exec (.msa w) s = .next { s with pc := s.pc + 2, trace := .melodyStart w :: s.trace }) ∧
    (s.device.melody = false → exec (.msa w) s = .refused .melodyCircuitAbsent)

/-- MOV reg, #i4 (R465): word, words and cycles, and the whole effect, on either core: the register alone, and no
flag. -/
def Obligations.MovRegisterRuns : Prop :=
  ∀ (s : State) (y : Nibble),
    exec (.movEbrI y) s = .next { s with ebr := y, pc := s.pc + 1 } ∧
    exec (.movCbrI y) s = .next { s with cbr := y, pc := s.pc + 1 } ∧
    exec (.movYRegI y) s = .next { s with y := y, pc := s.pc + 1 } ∧
    exec (.movXRegI y) s = .next { s with x := y, pc := s.pc + 1 } ∧
    exec (.movLRegI y) s = .next { s with l := y, pc := s.pc + 1 } ∧
    exec (.movHRegI y) s = .next { s with h := y, pc := s.pc + 1 } ∧
    exec (.movRa0I y) s = .next { s with ra0 := y, pc := s.pc + 1 } ∧
    exec (.movRa1I y) s = .next { s with ra1 := y, pc := s.pc + 1 } ∧
    exec (.movRa2I y) s = .next { s with ra2 := y, pc := s.pc + 1 } ∧
    exec (.movRa3I y) s = .next { s with ra3 := y, pc := s.pc + 1 } ∧
    encode (.movEbrI y) = [0x002#12 ++ y] ∧ encode (.movCbrI y) = [0x003#12 ++ y] ∧
    encode (.movYRegI y) = [0x010#12 ++ y] ∧ encode (.movXRegI y) = [0x011#12 ++ y] ∧
    encode (.movLRegI y) = [0x012#12 ++ y] ∧ encode (.movHRegI y) = [0x013#12 ++ y] ∧
    encode (.movRa0I y) = [0x020#12 ++ y] ∧ encode (.movRa1I y) = [0x021#12 ++ y] ∧
    encode (.movRa2I y) = [0x022#12 ++ y] ∧ encode (.movRa3I y) = [0x023#12 ++ y] ∧
    ∀ i ∈ [Instr.movEbrI y, .movCbrI y, .movYRegI y, .movXRegI y, .movLRegI y, .movHRegI y, .movRa0I y, .movRa1I y,
        .movRa2I y, .movRa3I y],
      i.words = 1 ∧ i.cycles = 1 ∧ ∀ c, i.providedOn c = true

/-! ## Stops -/

/-- R89, R561 (D25): a post-increment form that addresses 0F9H to 0FEH is refused, in an instruction on one nibble and,
with either nibble, in an 8-bit transfer. -/
def Obligations.PostIncrementHazardRefused : Prop :=
  ∀ (i : Instr) (s : State),
    (∀ o, i.view.operand = some o → objPost o = true → 0xF9 ≤ (objAddr o s).toNat → (objAddr o s).toNat ≤ 0xFE →
      exec i s = .refused .postincThroughPairOrBank) ∧
    (∀ m a, i.view.byteOperand = some m → indPost m = true → (a = indAddr m s ∨ a = indAddr1 m s) →
      0xF9 ≤ a.toNat → a.toNat ≤ 0xFE → exec i s = .refused .postincThroughPairOrBank)

/-- R148, R564 (D12): exactly the instructions only the nX-4/300 has are refused on the nX-4/250. -/
def Obligations.RefusedOn250 : Prop :=
  ∀ (i : Instr) (s : State), s.device.core = .nx250 →
    (exec i s = .refused .notProvidedOn250 ↔ i.providedOn .nx250 = false)

/-- R78 (D21): an access to a data RAM address the device does not implement has no meaning: a fault by name, for every
instruction on one nibble, and for an 8-bit transfer with either nibble (whose source word is implemented). -/
def Obligations.AbsentDataFaults : Prop :=
  ∀ (i : Instr) (s : State),
    (∀ o, i.view.operand = some o → i.providedOn s.device.core = true → dmPresent s (objAddr o s) = false →
      exec i s = .fault .dataAddressNotImplemented) ∧
    (∀ m, i.view.byteOperand = some m → byteHazard m s = false →
      (∀ h f, i.view = .rom h m f → pmRead s (farAddr f s) ≠ none) →
      (dmPresent s (indAddr m s) = false ∨ dmPresent s (indAddr1 m s) = false) →
      exec i s = .fault .dataAddressNotImplemented)

/-- R71 (D20): a fetch at a program address the device does not implement, of the first or the second word, has no
meaning: a fault by name. So has MOVHB or MOVLB of such an address. -/
def Obligations.AbsentProgramFaults : Prop :=
  ∀ s : State,
    (Quiet s → s.halted = false → pmRead s s.pc = none → step s = .fault .programAddressNotImplemented) ∧
    (∀ w k, Quiet s → s.halted = false → pmRead s s.pc = some w → openWord w = some (.more k) →
      pmRead s (s.pc + 1) = none → step s = .fault .programAddressNotImplemented) ∧
    (∀ (i : Instr) (h : Half) (m : Ind) (f : FarAddr), i.view = .rom h m f → byteHazard m s = false →
      pmRead s (farAddr f s) = none → exec i s = .fault .programAddressNotImplemented)
end

