-- ==== Sys2Proof/Laws/State.lean ====
section
/-! SUPPORT. What each named update leaves in each field, so that no proof unfolds a record update. -/

namespace Sys2Proof.Machine

/-! ## `advance` -/

@[simp] theorem advance_a (n : Nat) (s : State) : (advance n s).a = s.a := rfl
@[simp] theorem advance_z (n : Nat) (s : State) : (advance n s).z = s.z := rfl
@[simp] theorem advance_c (n : Nat) (s : State) : (advance n s).c = s.c := rfl
@[simp] theorem advance_g (n : Nat) (s : State) : (advance n s).g = s.g := rfl
@[simp] theorem advance_mie (n : Nat) (s : State) : (advance n s).mie = s.mie := rfl
@[simp] theorem advance_h (n : Nat) (s : State) : (advance n s).h = s.h := rfl
@[simp] theorem advance_l (n : Nat) (s : State) : (advance n s).l = s.l := rfl
@[simp] theorem advance_x (n : Nat) (s : State) : (advance n s).x = s.x := rfl
@[simp] theorem advance_y (n : Nat) (s : State) : (advance n s).y = s.y := rfl
@[simp] theorem advance_cbr (n : Nat) (s : State) : (advance n s).cbr = s.cbr := rfl
@[simp] theorem advance_ebr (n : Nat) (s : State) : (advance n s).ebr = s.ebr := rfl
@[simp] theorem advance_ra0 (n : Nat) (s : State) : (advance n s).ra0 = s.ra0 := rfl
@[simp] theorem advance_ra1 (n : Nat) (s : State) : (advance n s).ra1 = s.ra1 := rfl
@[simp] theorem advance_ra2 (n : Nat) (s : State) : (advance n s).ra2 = s.ra2 := rfl
@[simp] theorem advance_ra3 (n : Nat) (s : State) : (advance n s).ra3 = s.ra3 := rfl
@[simp] theorem advance_sp (n : Nat) (s : State) : (advance n s).sp = s.sp := rfl
@[simp] theorem advance_cstack (n : Nat) (s : State) : (advance n s).cstack = s.cstack := rfl
@[simp] theorem advance_rsp (n : Nat) (s : State) : (advance n s).rsp = s.rsp := rfl
@[simp] theorem advance_rstack (n : Nat) (s : State) : (advance n s).rstack = s.rstack := rfl
@[simp] theorem advance_mieSaved (n : Nat) (s : State) : (advance n s).mieSaved = s.mieSaved := rfl
@[simp] theorem advance_halted (n : Nat) (s : State) : (advance n s).halted = s.halted := rfl
@[simp] theorem advance_ram (n : Nat) (s : State) : (advance n s).ram = s.ram := rfl
@[simp] theorem advance_pm (n : Nat) (s : State) : (advance n s).pm = s.pm := rfl
@[simp] theorem advance_xm (n : Nat) (s : State) : (advance n s).xm = s.xm := rfl
@[simp] theorem advance_device (n : Nat) (s : State) : (advance n s).device = s.device := rfl
@[simp] theorem advance_env (n : Nat) (s : State) : (advance n s).env = s.env := rfl
@[simp] theorem advance_trace (n : Nat) (s : State) : (advance n s).trace = s.trace := rfl
@[simp] theorem advance_draws (n : Nat) (s : State) : (advance n s).draws = s.draws := rfl
@[simp] theorem advance_resets (n : Nat) (s : State) : (advance n s).resets = s.resets := rfl
@[simp] theorem advance_cycles (n : Nat) (s : State) : (advance n s).cycles = s.cycles := rfl
@[simp] theorem advance_pc (n : Nat) (s : State) : (advance n s).pc = s.pc + BitVec.ofNat 16 n := rfl

/-! ## `setPair` -/

@[simp] theorem setPair_a (p : Pair) (t : Byte) (s : State) : (setPair p t s).a = s.a := by cases p <;> rfl
@[simp] theorem setPair_z (p : Pair) (t : Byte) (s : State) : (setPair p t s).z = s.z := by cases p <;> rfl
@[simp] theorem setPair_c (p : Pair) (t : Byte) (s : State) : (setPair p t s).c = s.c := by cases p <;> rfl
@[simp] theorem setPair_g (p : Pair) (t : Byte) (s : State) : (setPair p t s).g = s.g := by cases p <;> rfl
@[simp] theorem setPair_mie (p : Pair) (t : Byte) (s : State) : (setPair p t s).mie = s.mie := by cases p <;> rfl
@[simp] theorem setPair_cbr (p : Pair) (t : Byte) (s : State) : (setPair p t s).cbr = s.cbr := by cases p <;> rfl
@[simp] theorem setPair_ebr (p : Pair) (t : Byte) (s : State) : (setPair p t s).ebr = s.ebr := by cases p <;> rfl
@[simp] theorem setPair_ra0 (p : Pair) (t : Byte) (s : State) : (setPair p t s).ra0 = s.ra0 := by cases p <;> rfl
@[simp] theorem setPair_ra1 (p : Pair) (t : Byte) (s : State) : (setPair p t s).ra1 = s.ra1 := by cases p <;> rfl
@[simp] theorem setPair_ra2 (p : Pair) (t : Byte) (s : State) : (setPair p t s).ra2 = s.ra2 := by cases p <;> rfl
@[simp] theorem setPair_ra3 (p : Pair) (t : Byte) (s : State) : (setPair p t s).ra3 = s.ra3 := by cases p <;> rfl
@[simp] theorem setPair_pc (p : Pair) (t : Byte) (s : State) : (setPair p t s).pc = s.pc := by cases p <;> rfl
@[simp] theorem setPair_sp (p : Pair) (t : Byte) (s : State) : (setPair p t s).sp = s.sp := by cases p <;> rfl
@[simp] theorem setPair_cstack (p : Pair) (t : Byte) (s : State) : (setPair p t s).cstack = s.cstack := by cases p <;> rfl
@[simp] theorem setPair_rsp (p : Pair) (t : Byte) (s : State) : (setPair p t s).rsp = s.rsp := by cases p <;> rfl
@[simp] theorem setPair_rstack (p : Pair) (t : Byte) (s : State) : (setPair p t s).rstack = s.rstack := by cases p <;> rfl
@[simp] theorem setPair_mieSaved (p : Pair) (t : Byte) (s : State) : (setPair p t s).mieSaved = s.mieSaved := by cases p <;> rfl
@[simp] theorem setPair_halted (p : Pair) (t : Byte) (s : State) : (setPair p t s).halted = s.halted := by cases p <;> rfl
@[simp] theorem setPair_ram (p : Pair) (t : Byte) (s : State) : (setPair p t s).ram = s.ram := by cases p <;> rfl
@[simp] theorem setPair_pm (p : Pair) (t : Byte) (s : State) : (setPair p t s).pm = s.pm := by cases p <;> rfl
@[simp] theorem setPair_xm (p : Pair) (t : Byte) (s : State) : (setPair p t s).xm = s.xm := by cases p <;> rfl
@[simp] theorem setPair_device (p : Pair) (t : Byte) (s : State) : (setPair p t s).device = s.device := by cases p <;> rfl
@[simp] theorem setPair_env (p : Pair) (t : Byte) (s : State) : (setPair p t s).env = s.env := by cases p <;> rfl
@[simp] theorem setPair_trace (p : Pair) (t : Byte) (s : State) : (setPair p t s).trace = s.trace := by cases p <;> rfl
@[simp] theorem setPair_draws (p : Pair) (t : Byte) (s : State) : (setPair p t s).draws = s.draws := by cases p <;> rfl
@[simp] theorem setPair_resets (p : Pair) (t : Byte) (s : State) : (setPair p t s).resets = s.resets := by cases p <;> rfl
@[simp] theorem setPair_cycles (p : Pair) (t : Byte) (s : State) : (setPair p t s).cycles = s.cycles := by cases p <;> rfl

/-! ## `postInc` -/

@[simp] theorem postInc_a (p : Pair) (k : Nat) (s : State) : (postInc p k s).a = s.a := by cases p <;> rfl
@[simp] theorem postInc_z (p : Pair) (k : Nat) (s : State) : (postInc p k s).z = s.z := by cases p <;> rfl
@[simp] theorem postInc_c (p : Pair) (k : Nat) (s : State) : (postInc p k s).c = s.c := by cases p <;> rfl
@[simp] theorem postInc_mie (p : Pair) (k : Nat) (s : State) : (postInc p k s).mie = s.mie := by cases p <;> rfl
@[simp] theorem postInc_cbr (p : Pair) (k : Nat) (s : State) : (postInc p k s).cbr = s.cbr := by cases p <;> rfl
@[simp] theorem postInc_ebr (p : Pair) (k : Nat) (s : State) : (postInc p k s).ebr = s.ebr := by cases p <;> rfl
@[simp] theorem postInc_ra0 (p : Pair) (k : Nat) (s : State) : (postInc p k s).ra0 = s.ra0 := by cases p <;> rfl
@[simp] theorem postInc_ra1 (p : Pair) (k : Nat) (s : State) : (postInc p k s).ra1 = s.ra1 := by cases p <;> rfl
@[simp] theorem postInc_ra2 (p : Pair) (k : Nat) (s : State) : (postInc p k s).ra2 = s.ra2 := by cases p <;> rfl
@[simp] theorem postInc_ra3 (p : Pair) (k : Nat) (s : State) : (postInc p k s).ra3 = s.ra3 := by cases p <;> rfl
@[simp] theorem postInc_pc (p : Pair) (k : Nat) (s : State) : (postInc p k s).pc = s.pc := by cases p <;> rfl
@[simp] theorem postInc_sp (p : Pair) (k : Nat) (s : State) : (postInc p k s).sp = s.sp := by cases p <;> rfl
@[simp] theorem postInc_cstack (p : Pair) (k : Nat) (s : State) : (postInc p k s).cstack = s.cstack := by cases p <;> rfl
@[simp] theorem postInc_rsp (p : Pair) (k : Nat) (s : State) : (postInc p k s).rsp = s.rsp := by cases p <;> rfl
@[simp] theorem postInc_rstack (p : Pair) (k : Nat) (s : State) : (postInc p k s).rstack = s.rstack := by cases p <;> rfl
@[simp] theorem postInc_mieSaved (p : Pair) (k : Nat) (s : State) : (postInc p k s).mieSaved = s.mieSaved := by cases p <;> rfl
@[simp] theorem postInc_halted (p : Pair) (k : Nat) (s : State) : (postInc p k s).halted = s.halted := by cases p <;> rfl
@[simp] theorem postInc_ram (p : Pair) (k : Nat) (s : State) : (postInc p k s).ram = s.ram := by cases p <;> rfl
@[simp] theorem postInc_pm (p : Pair) (k : Nat) (s : State) : (postInc p k s).pm = s.pm := by cases p <;> rfl
@[simp] theorem postInc_xm (p : Pair) (k : Nat) (s : State) : (postInc p k s).xm = s.xm := by cases p <;> rfl
@[simp] theorem postInc_device (p : Pair) (k : Nat) (s : State) : (postInc p k s).device = s.device := by cases p <;> rfl
@[simp] theorem postInc_env (p : Pair) (k : Nat) (s : State) : (postInc p k s).env = s.env := by cases p <;> rfl
@[simp] theorem postInc_trace (p : Pair) (k : Nat) (s : State) : (postInc p k s).trace = s.trace := by cases p <;> rfl
@[simp] theorem postInc_draws (p : Pair) (k : Nat) (s : State) : (postInc p k s).draws = s.draws := by cases p <;> rfl
@[simp] theorem postInc_resets (p : Pair) (k : Nat) (s : State) : (postInc p k s).resets = s.resets := by cases p <;> rfl
@[simp] theorem postInc_cycles (p : Pair) (k : Nat) (s : State) : (postInc p k s).cycles = s.cycles := by cases p <;> rfl
@[simp] theorem postInc_g (p : Pair) (k : Nat) (s : State) :
    (postInc p k s).g = decide (255 < (pairValue p s).toNat + k) := rfl

/-! ## `setRa` -/

@[simp] theorem setRa_a (t : Word) (s : State) : (setRa t s).a = s.a := rfl
@[simp] theorem setRa_z (t : Word) (s : State) : (setRa t s).z = s.z := rfl
@[simp] theorem setRa_c (t : Word) (s : State) : (setRa t s).c = s.c := rfl
@[simp] theorem setRa_g (t : Word) (s : State) : (setRa t s).g = s.g := rfl
@[simp] theorem setRa_mie (t : Word) (s : State) : (setRa t s).mie = s.mie := rfl
@[simp] theorem setRa_h (t : Word) (s : State) : (setRa t s).h = s.h := rfl
@[simp] theorem setRa_l (t : Word) (s : State) : (setRa t s).l = s.l := rfl
@[simp] theorem setRa_x (t : Word) (s : State) : (setRa t s).x = s.x := rfl
@[simp] theorem setRa_y (t : Word) (s : State) : (setRa t s).y = s.y := rfl
@[simp] theorem setRa_cbr (t : Word) (s : State) : (setRa t s).cbr = s.cbr := rfl
@[simp] theorem setRa_ebr (t : Word) (s : State) : (setRa t s).ebr = s.ebr := rfl
@[simp] theorem setRa_pc (t : Word) (s : State) : (setRa t s).pc = s.pc := rfl
@[simp] theorem setRa_sp (t : Word) (s : State) : (setRa t s).sp = s.sp := rfl
@[simp] theorem setRa_cstack (t : Word) (s : State) : (setRa t s).cstack = s.cstack := rfl
@[simp] theorem setRa_rsp (t : Word) (s : State) : (setRa t s).rsp = s.rsp := rfl
@[simp] theorem setRa_rstack (t : Word) (s : State) : (setRa t s).rstack = s.rstack := rfl
@[simp] theorem setRa_mieSaved (t : Word) (s : State) : (setRa t s).mieSaved = s.mieSaved := rfl
@[simp] theorem setRa_halted (t : Word) (s : State) : (setRa t s).halted = s.halted := rfl
@[simp] theorem setRa_ram (t : Word) (s : State) : (setRa t s).ram = s.ram := rfl
@[simp] theorem setRa_pm (t : Word) (s : State) : (setRa t s).pm = s.pm := rfl
@[simp] theorem setRa_xm (t : Word) (s : State) : (setRa t s).xm = s.xm := rfl
@[simp] theorem setRa_device (t : Word) (s : State) : (setRa t s).device = s.device := rfl
@[simp] theorem setRa_env (t : Word) (s : State) : (setRa t s).env = s.env := rfl
@[simp] theorem setRa_trace (t : Word) (s : State) : (setRa t s).trace = s.trace := rfl
@[simp] theorem setRa_draws (t : Word) (s : State) : (setRa t s).draws = s.draws := rfl
@[simp] theorem setRa_resets (t : Word) (s : State) : (setRa t s).resets = s.resets := rfl
@[simp] theorem setRa_cycles (t : Word) (s : State) : (setRa t s).cycles = s.cycles := rfl
@[simp] theorem setRa_ra0 (t : Word) (s : State) : (setRa t s).ra0 = t.extractLsb' 0 4 := rfl
@[simp] theorem setRa_ra1 (t : Word) (s : State) : (setRa t s).ra1 = t.extractLsb' 4 4 := rfl
@[simp] theorem setRa_ra2 (t : Word) (s : State) : (setRa t s).ra2 = t.extractLsb' 8 4 := rfl
@[simp] theorem setRa_ra3 (t : Word) (s : State) : (setRa t s).ra3 = t.extractLsb' 12 4 := rfl

/-! ## `setReg` -/

@[simp] theorem setReg_a (r : Reg) (i : Nibble) (s : State) : (setReg r i s).a = s.a := by cases r <;> rfl
@[simp] theorem setReg_z (r : Reg) (i : Nibble) (s : State) : (setReg r i s).z = s.z := by cases r <;> rfl
@[simp] theorem setReg_c (r : Reg) (i : Nibble) (s : State) : (setReg r i s).c = s.c := by cases r <;> rfl
@[simp] theorem setReg_g (r : Reg) (i : Nibble) (s : State) : (setReg r i s).g = s.g := by cases r <;> rfl
@[simp] theorem setReg_mie (r : Reg) (i : Nibble) (s : State) : (setReg r i s).mie = s.mie := by cases r <;> rfl
@[simp] theorem setReg_pc (r : Reg) (i : Nibble) (s : State) : (setReg r i s).pc = s.pc := by cases r <;> rfl
@[simp] theorem setReg_sp (r : Reg) (i : Nibble) (s : State) : (setReg r i s).sp = s.sp := by cases r <;> rfl
@[simp] theorem setReg_cstack (r : Reg) (i : Nibble) (s : State) : (setReg r i s).cstack = s.cstack := by cases r <;> rfl
@[simp] theorem setReg_rsp (r : Reg) (i : Nibble) (s : State) : (setReg r i s).rsp = s.rsp := by cases r <;> rfl
@[simp] theorem setReg_rstack (r : Reg) (i : Nibble) (s : State) : (setReg r i s).rstack = s.rstack := by cases r <;> rfl
@[simp] theorem setReg_mieSaved (r : Reg) (i : Nibble) (s : State) : (setReg r i s).mieSaved = s.mieSaved := by cases r <;> rfl
@[simp] theorem setReg_halted (r : Reg) (i : Nibble) (s : State) : (setReg r i s).halted = s.halted := by cases r <;> rfl
@[simp] theorem setReg_ram (r : Reg) (i : Nibble) (s : State) : (setReg r i s).ram = s.ram := by cases r <;> rfl
@[simp] theorem setReg_pm (r : Reg) (i : Nibble) (s : State) : (setReg r i s).pm = s.pm := by cases r <;> rfl
@[simp] theorem setReg_xm (r : Reg) (i : Nibble) (s : State) : (setReg r i s).xm = s.xm := by cases r <;> rfl
@[simp] theorem setReg_device (r : Reg) (i : Nibble) (s : State) : (setReg r i s).device = s.device := by cases r <;> rfl
@[simp] theorem setReg_env (r : Reg) (i : Nibble) (s : State) : (setReg r i s).env = s.env := by cases r <;> rfl
@[simp] theorem setReg_trace (r : Reg) (i : Nibble) (s : State) : (setReg r i s).trace = s.trace := by cases r <;> rfl
@[simp] theorem setReg_draws (r : Reg) (i : Nibble) (s : State) : (setReg r i s).draws = s.draws := by cases r <;> rfl
@[simp] theorem setReg_resets (r : Reg) (i : Nibble) (s : State) : (setReg r i s).resets = s.resets := by cases r <;> rfl
@[simp] theorem setReg_cycles (r : Reg) (i : Nibble) (s : State) : (setReg r i s).cycles = s.cycles := by cases r <;> rfl

/-! ## `setCoreReg` -/

@[simp] theorem setCoreReg_a (r : CoreReg) (v : Nibble) (s : State) : (setCoreReg r v s).a = s.a := by cases r <;> rfl
@[simp] theorem setCoreReg_z (r : CoreReg) (v : Nibble) (s : State) : (setCoreReg r v s).z = s.z := by cases r <;> rfl
@[simp] theorem setCoreReg_c (r : CoreReg) (v : Nibble) (s : State) : (setCoreReg r v s).c = s.c := by cases r <;> rfl
@[simp] theorem setCoreReg_g (r : CoreReg) (v : Nibble) (s : State) : (setCoreReg r v s).g = s.g := by cases r <;> rfl
@[simp] theorem setCoreReg_mie (r : CoreReg) (v : Nibble) (s : State) : (setCoreReg r v s).mie = s.mie := by cases r <;> rfl
@[simp] theorem setCoreReg_pc (r : CoreReg) (v : Nibble) (s : State) : (setCoreReg r v s).pc = s.pc := by cases r <;> rfl
@[simp] theorem setCoreReg_sp (r : CoreReg) (v : Nibble) (s : State) : (setCoreReg r v s).sp = s.sp := by cases r <;> rfl
@[simp] theorem setCoreReg_cstack (r : CoreReg) (v : Nibble) (s : State) : (setCoreReg r v s).cstack = s.cstack := by cases r <;> rfl
@[simp] theorem setCoreReg_rstack (r : CoreReg) (v : Nibble) (s : State) : (setCoreReg r v s).rstack = s.rstack := by cases r <;> rfl
@[simp] theorem setCoreReg_mieSaved (r : CoreReg) (v : Nibble) (s : State) : (setCoreReg r v s).mieSaved = s.mieSaved := by cases r <;> rfl
@[simp] theorem setCoreReg_halted (r : CoreReg) (v : Nibble) (s : State) : (setCoreReg r v s).halted = s.halted := by cases r <;> rfl
@[simp] theorem setCoreReg_ram (r : CoreReg) (v : Nibble) (s : State) : (setCoreReg r v s).ram = s.ram := by cases r <;> rfl
@[simp] theorem setCoreReg_pm (r : CoreReg) (v : Nibble) (s : State) : (setCoreReg r v s).pm = s.pm := by cases r <;> rfl
@[simp] theorem setCoreReg_xm (r : CoreReg) (v : Nibble) (s : State) : (setCoreReg r v s).xm = s.xm := by cases r <;> rfl
@[simp] theorem setCoreReg_device (r : CoreReg) (v : Nibble) (s : State) : (setCoreReg r v s).device = s.device := by cases r <;> rfl
@[simp] theorem setCoreReg_env (r : CoreReg) (v : Nibble) (s : State) : (setCoreReg r v s).env = s.env := by cases r <;> rfl
@[simp] theorem setCoreReg_trace (r : CoreReg) (v : Nibble) (s : State) : (setCoreReg r v s).trace = s.trace := by cases r <;> rfl
@[simp] theorem setCoreReg_draws (r : CoreReg) (v : Nibble) (s : State) : (setCoreReg r v s).draws = s.draws := by cases r <;> rfl
@[simp] theorem setCoreReg_resets (r : CoreReg) (v : Nibble) (s : State) : (setCoreReg r v s).resets = s.resets := by cases r <;> rfl
@[simp] theorem setCoreReg_cycles (r : CoreReg) (v : Nibble) (s : State) : (setCoreReg r v s).cycles = s.cycles := by cases r <;> rfl

/-! ## `dmStore` -/

@[simp] theorem dmStore_a (a : DataAddr) (v : Nibble) (s : State) : (dmStore s a v).a = s.a := by
  unfold dmStore
  split <;> simp
@[simp] theorem dmStore_z (a : DataAddr) (v : Nibble) (s : State) : (dmStore s a v).z = s.z := by
  unfold dmStore
  split <;> simp
@[simp] theorem dmStore_c (a : DataAddr) (v : Nibble) (s : State) : (dmStore s a v).c = s.c := by
  unfold dmStore
  split <;> simp
@[simp] theorem dmStore_g (a : DataAddr) (v : Nibble) (s : State) : (dmStore s a v).g = s.g := by
  unfold dmStore
  split <;> simp
@[simp] theorem dmStore_mie (a : DataAddr) (v : Nibble) (s : State) : (dmStore s a v).mie = s.mie := by
  unfold dmStore
  split <;> simp
@[simp] theorem dmStore_pc (a : DataAddr) (v : Nibble) (s : State) : (dmStore s a v).pc = s.pc := by
  unfold dmStore
  split <;> simp
@[simp] theorem dmStore_sp (a : DataAddr) (v : Nibble) (s : State) : (dmStore s a v).sp = s.sp := by
  unfold dmStore
  split <;> simp
@[simp] theorem dmStore_cstack (a : DataAddr) (v : Nibble) (s : State) : (dmStore s a v).cstack = s.cstack := by
  unfold dmStore
  split <;> simp
@[simp] theorem dmStore_rstack (a : DataAddr) (v : Nibble) (s : State) : (dmStore s a v).rstack = s.rstack := by
  unfold dmStore
  split <;> simp
@[simp] theorem dmStore_mieSaved (a : DataAddr) (v : Nibble) (s : State) : (dmStore s a v).mieSaved = s.mieSaved := by
  unfold dmStore
  split <;> simp
@[simp] theorem dmStore_halted (a : DataAddr) (v : Nibble) (s : State) : (dmStore s a v).halted = s.halted := by
  unfold dmStore
  split <;> simp
@[simp] theorem dmStore_pm (a : DataAddr) (v : Nibble) (s : State) : (dmStore s a v).pm = s.pm := by
  unfold dmStore
  split <;> simp
@[simp] theorem dmStore_xm (a : DataAddr) (v : Nibble) (s : State) : (dmStore s a v).xm = s.xm := by
  unfold dmStore
  split <;> simp
@[simp] theorem dmStore_device (a : DataAddr) (v : Nibble) (s : State) : (dmStore s a v).device = s.device := by
  unfold dmStore
  split <;> simp
@[simp] theorem dmStore_env (a : DataAddr) (v : Nibble) (s : State) : (dmStore s a v).env = s.env := by
  unfold dmStore
  split <;> simp
@[simp] theorem dmStore_draws (a : DataAddr) (v : Nibble) (s : State) : (dmStore s a v).draws = s.draws := by
  unfold dmStore
  split <;> simp
@[simp] theorem dmStore_resets (a : DataAddr) (v : Nibble) (s : State) : (dmStore s a v).resets = s.resets := by
  unfold dmStore
  split <;> simp
@[simp] theorem dmStore_cycles (a : DataAddr) (v : Nibble) (s : State) : (dmStore s a v).cycles = s.cycles := by
  unfold dmStore
  split <;> simp

/-! ## `afterDmRead` -/

@[simp] theorem afterDmRead_a (a : DataAddr) (s : State) : (afterDmRead s a).a = s.a := by
  unfold afterDmRead
  split <;> rfl
@[simp] theorem afterDmRead_z (a : DataAddr) (s : State) : (afterDmRead s a).z = s.z := by
  unfold afterDmRead
  split <;> rfl
@[simp] theorem afterDmRead_c (a : DataAddr) (s : State) : (afterDmRead s a).c = s.c := by
  unfold afterDmRead
  split <;> rfl
@[simp] theorem afterDmRead_g (a : DataAddr) (s : State) : (afterDmRead s a).g = s.g := by
  unfold afterDmRead
  split <;> rfl
@[simp] theorem afterDmRead_mie (a : DataAddr) (s : State) : (afterDmRead s a).mie = s.mie := by
  unfold afterDmRead
  split <;> rfl
@[simp] theorem afterDmRead_h (a : DataAddr) (s : State) : (afterDmRead s a).h = s.h := by
  unfold afterDmRead
  split <;> rfl
@[simp] theorem afterDmRead_l (a : DataAddr) (s : State) : (afterDmRead s a).l = s.l := by
  unfold afterDmRead
  split <;> rfl
@[simp] theorem afterDmRead_x (a : DataAddr) (s : State) : (afterDmRead s a).x = s.x := by
  unfold afterDmRead
  split <;> rfl
@[simp] theorem afterDmRead_y (a : DataAddr) (s : State) : (afterDmRead s a).y = s.y := by
  unfold afterDmRead
  split <;> rfl
@[simp] theorem afterDmRead_cbr (a : DataAddr) (s : State) : (afterDmRead s a).cbr = s.cbr := by
  unfold afterDmRead
  split <;> rfl
@[simp] theorem afterDmRead_ebr (a : DataAddr) (s : State) : (afterDmRead s a).ebr = s.ebr := by
  unfold afterDmRead
  split <;> rfl
@[simp] theorem afterDmRead_ra0 (a : DataAddr) (s : State) : (afterDmRead s a).ra0 = s.ra0 := by
  unfold afterDmRead
  split <;> rfl
@[simp] theorem afterDmRead_ra1 (a : DataAddr) (s : State) : (afterDmRead s a).ra1 = s.ra1 := by
  unfold afterDmRead
  split <;> rfl
@[simp] theorem afterDmRead_ra2 (a : DataAddr) (s : State) : (afterDmRead s a).ra2 = s.ra2 := by
  unfold afterDmRead
  split <;> rfl
@[simp] theorem afterDmRead_ra3 (a : DataAddr) (s : State) : (afterDmRead s a).ra3 = s.ra3 := by
  unfold afterDmRead
  split <;> rfl
@[simp] theorem afterDmRead_pc (a : DataAddr) (s : State) : (afterDmRead s a).pc = s.pc := by
  unfold afterDmRead
  split <;> rfl
@[simp] theorem afterDmRead_sp (a : DataAddr) (s : State) : (afterDmRead s a).sp = s.sp := by
  unfold afterDmRead
  split <;> rfl
@[simp] theorem afterDmRead_cstack (a : DataAddr) (s : State) : (afterDmRead s a).cstack = s.cstack := by
  unfold afterDmRead
  split <;> rfl
@[simp] theorem afterDmRead_rsp (a : DataAddr) (s : State) : (afterDmRead s a).rsp = s.rsp := by
  unfold afterDmRead
  split <;> rfl
@[simp] theorem afterDmRead_rstack (a : DataAddr) (s : State) : (afterDmRead s a).rstack = s.rstack := by
  unfold afterDmRead
  split <;> rfl
@[simp] theorem afterDmRead_mieSaved (a : DataAddr) (s : State) : (afterDmRead s a).mieSaved = s.mieSaved := by
  unfold afterDmRead
  split <;> rfl
@[simp] theorem afterDmRead_halted (a : DataAddr) (s : State) : (afterDmRead s a).halted = s.halted := by
  unfold afterDmRead
  split <;> rfl
@[simp] theorem afterDmRead_ram (a : DataAddr) (s : State) : (afterDmRead s a).ram = s.ram := by
  unfold afterDmRead
  split <;> rfl
@[simp] theorem afterDmRead_pm (a : DataAddr) (s : State) : (afterDmRead s a).pm = s.pm := by
  unfold afterDmRead
  split <;> rfl
@[simp] theorem afterDmRead_xm (a : DataAddr) (s : State) : (afterDmRead s a).xm = s.xm := by
  unfold afterDmRead
  split <;> rfl
@[simp] theorem afterDmRead_device (a : DataAddr) (s : State) : (afterDmRead s a).device = s.device := by
  unfold afterDmRead
  split <;> rfl
@[simp] theorem afterDmRead_env (a : DataAddr) (s : State) : (afterDmRead s a).env = s.env := by
  unfold afterDmRead
  split <;> rfl
@[simp] theorem afterDmRead_resets (a : DataAddr) (s : State) : (afterDmRead s a).resets = s.resets := by
  unfold afterDmRead
  split <;> rfl
@[simp] theorem afterDmRead_cycles (a : DataAddr) (s : State) : (afterDmRead s a).cycles = s.cycles := by
  unfold afterDmRead
  split <;> rfl

/-! ## `dmLoadNibble` -/

@[simp] theorem dmLoadNibble_a (a : DataAddr) (v : Nibble) (s : State) : (dmLoadNibble s a v).a = s.a := by
  unfold dmLoadNibble
  split <;> simp
@[simp] theorem dmLoadNibble_z (a : DataAddr) (v : Nibble) (s : State) : (dmLoadNibble s a v).z = s.z := by
  unfold dmLoadNibble
  split <;> simp
@[simp] theorem dmLoadNibble_c (a : DataAddr) (v : Nibble) (s : State) : (dmLoadNibble s a v).c = s.c := by
  unfold dmLoadNibble
  split <;> simp
@[simp] theorem dmLoadNibble_g (a : DataAddr) (v : Nibble) (s : State) : (dmLoadNibble s a v).g = s.g := by
  unfold dmLoadNibble
  split <;> simp
@[simp] theorem dmLoadNibble_mie (a : DataAddr) (v : Nibble) (s : State) : (dmLoadNibble s a v).mie = s.mie := by
  unfold dmLoadNibble
  split <;> simp
@[simp] theorem dmLoadNibble_pc (a : DataAddr) (v : Nibble) (s : State) : (dmLoadNibble s a v).pc = s.pc := by
  unfold dmLoadNibble
  split <;> simp
@[simp] theorem dmLoadNibble_sp (a : DataAddr) (v : Nibble) (s : State) : (dmLoadNibble s a v).sp = s.sp := by
  unfold dmLoadNibble
  split <;> simp
@[simp] theorem dmLoadNibble_cstack (a : DataAddr) (v : Nibble) (s : State) : (dmLoadNibble s a v).cstack = s.cstack := by
  unfold dmLoadNibble
  split <;> simp
@[simp] theorem dmLoadNibble_rstack (a : DataAddr) (v : Nibble) (s : State) : (dmLoadNibble s a v).rstack = s.rstack := by
  unfold dmLoadNibble
  split <;> simp
@[simp] theorem dmLoadNibble_mieSaved (a : DataAddr) (v : Nibble) (s : State) : (dmLoadNibble s a v).mieSaved = s.mieSaved := by
  unfold dmLoadNibble
  split <;> simp
@[simp] theorem dmLoadNibble_halted (a : DataAddr) (v : Nibble) (s : State) : (dmLoadNibble s a v).halted = s.halted := by
  unfold dmLoadNibble
  split <;> simp
@[simp] theorem dmLoadNibble_pm (a : DataAddr) (v : Nibble) (s : State) : (dmLoadNibble s a v).pm = s.pm := by
  unfold dmLoadNibble
  split <;> simp
@[simp] theorem dmLoadNibble_xm (a : DataAddr) (v : Nibble) (s : State) : (dmLoadNibble s a v).xm = s.xm := by
  unfold dmLoadNibble
  split <;> simp
@[simp] theorem dmLoadNibble_device (a : DataAddr) (v : Nibble) (s : State) : (dmLoadNibble s a v).device = s.device := by
  unfold dmLoadNibble
  split <;> simp
@[simp] theorem dmLoadNibble_env (a : DataAddr) (v : Nibble) (s : State) : (dmLoadNibble s a v).env = s.env := by
  unfold dmLoadNibble
  split <;> simp
@[simp] theorem dmLoadNibble_resets (a : DataAddr) (v : Nibble) (s : State) : (dmLoadNibble s a v).resets = s.resets := by
  unfold dmLoadNibble
  split <;> simp
@[simp] theorem dmLoadNibble_cycles (a : DataAddr) (v : Nibble) (s : State) : (dmLoadNibble s a v).cycles = s.cycles := by
  unfold dmLoadNibble
  split <;> simp

/-! ## `afterXmRead` -/

@[simp] theorem afterXmRead_a (a : Word) (s : State) : (afterXmRead s a).a = s.a := rfl
@[simp] theorem afterXmRead_z (a : Word) (s : State) : (afterXmRead s a).z = s.z := rfl
@[simp] theorem afterXmRead_c (a : Word) (s : State) : (afterXmRead s a).c = s.c := rfl
@[simp] theorem afterXmRead_g (a : Word) (s : State) : (afterXmRead s a).g = s.g := rfl
@[simp] theorem afterXmRead_mie (a : Word) (s : State) : (afterXmRead s a).mie = s.mie := rfl
@[simp] theorem afterXmRead_h (a : Word) (s : State) : (afterXmRead s a).h = s.h := rfl
@[simp] theorem afterXmRead_l (a : Word) (s : State) : (afterXmRead s a).l = s.l := rfl
@[simp] theorem afterXmRead_x (a : Word) (s : State) : (afterXmRead s a).x = s.x := rfl
@[simp] theorem afterXmRead_y (a : Word) (s : State) : (afterXmRead s a).y = s.y := rfl
@[simp] theorem afterXmRead_cbr (a : Word) (s : State) : (afterXmRead s a).cbr = s.cbr := rfl
@[simp] theorem afterXmRead_ebr (a : Word) (s : State) : (afterXmRead s a).ebr = s.ebr := rfl
@[simp] theorem afterXmRead_ra0 (a : Word) (s : State) : (afterXmRead s a).ra0 = s.ra0 := rfl
@[simp] theorem afterXmRead_ra1 (a : Word) (s : State) : (afterXmRead s a).ra1 = s.ra1 := rfl
@[simp] theorem afterXmRead_ra2 (a : Word) (s : State) : (afterXmRead s a).ra2 = s.ra2 := rfl
@[simp] theorem afterXmRead_ra3 (a : Word) (s : State) : (afterXmRead s a).ra3 = s.ra3 := rfl
@[simp] theorem afterXmRead_pc (a : Word) (s : State) : (afterXmRead s a).pc = s.pc := rfl
@[simp] theorem afterXmRead_sp (a : Word) (s : State) : (afterXmRead s a).sp = s.sp := rfl
@[simp] theorem afterXmRead_cstack (a : Word) (s : State) : (afterXmRead s a).cstack = s.cstack := rfl
@[simp] theorem afterXmRead_rsp (a : Word) (s : State) : (afterXmRead s a).rsp = s.rsp := rfl
@[simp] theorem afterXmRead_rstack (a : Word) (s : State) : (afterXmRead s a).rstack = s.rstack := rfl
@[simp] theorem afterXmRead_mieSaved (a : Word) (s : State) : (afterXmRead s a).mieSaved = s.mieSaved := rfl
@[simp] theorem afterXmRead_halted (a : Word) (s : State) : (afterXmRead s a).halted = s.halted := rfl
@[simp] theorem afterXmRead_ram (a : Word) (s : State) : (afterXmRead s a).ram = s.ram := rfl
@[simp] theorem afterXmRead_pm (a : Word) (s : State) : (afterXmRead s a).pm = s.pm := rfl
@[simp] theorem afterXmRead_xm (a : Word) (s : State) : (afterXmRead s a).xm = s.xm := rfl
@[simp] theorem afterXmRead_device (a : Word) (s : State) : (afterXmRead s a).device = s.device := rfl
@[simp] theorem afterXmRead_env (a : Word) (s : State) : (afterXmRead s a).env = s.env := rfl
@[simp] theorem afterXmRead_resets (a : Word) (s : State) : (afterXmRead s a).resets = s.resets := rfl
@[simp] theorem afterXmRead_cycles (a : Word) (s : State) : (afterXmRead s a).cycles = s.cycles := rfl
@[simp] theorem afterXmRead_trace (a : Word) (s : State) : (afterXmRead s a).trace = .xmRead a :: s.trace := rfl

/-! ## `xmStore` -/

@[simp] theorem xmStore_a (a : Word) (v : Byte) (s : State) : (xmStore s a v).a = s.a := rfl
@[simp] theorem xmStore_z (a : Word) (v : Byte) (s : State) : (xmStore s a v).z = s.z := rfl
@[simp] theorem xmStore_c (a : Word) (v : Byte) (s : State) : (xmStore s a v).c = s.c := rfl
@[simp] theorem xmStore_g (a : Word) (v : Byte) (s : State) : (xmStore s a v).g = s.g := rfl
@[simp] theorem xmStore_mie (a : Word) (v : Byte) (s : State) : (xmStore s a v).mie = s.mie := rfl
@[simp] theorem xmStore_h (a : Word) (v : Byte) (s : State) : (xmStore s a v).h = s.h := rfl
@[simp] theorem xmStore_l (a : Word) (v : Byte) (s : State) : (xmStore s a v).l = s.l := rfl
@[simp] theorem xmStore_x (a : Word) (v : Byte) (s : State) : (xmStore s a v).x = s.x := rfl
@[simp] theorem xmStore_y (a : Word) (v : Byte) (s : State) : (xmStore s a v).y = s.y := rfl
@[simp] theorem xmStore_cbr (a : Word) (v : Byte) (s : State) : (xmStore s a v).cbr = s.cbr := rfl
@[simp] theorem xmStore_ebr (a : Word) (v : Byte) (s : State) : (xmStore s a v).ebr = s.ebr := rfl
@[simp] theorem xmStore_ra0 (a : Word) (v : Byte) (s : State) : (xmStore s a v).ra0 = s.ra0 := rfl
@[simp] theorem xmStore_ra1 (a : Word) (v : Byte) (s : State) : (xmStore s a v).ra1 = s.ra1 := rfl
@[simp] theorem xmStore_ra2 (a : Word) (v : Byte) (s : State) : (xmStore s a v).ra2 = s.ra2 := rfl
@[simp] theorem xmStore_ra3 (a : Word) (v : Byte) (s : State) : (xmStore s a v).ra3 = s.ra3 := rfl
@[simp] theorem xmStore_pc (a : Word) (v : Byte) (s : State) : (xmStore s a v).pc = s.pc := rfl
@[simp] theorem xmStore_sp (a : Word) (v : Byte) (s : State) : (xmStore s a v).sp = s.sp := rfl
@[simp] theorem xmStore_cstack (a : Word) (v : Byte) (s : State) : (xmStore s a v).cstack = s.cstack := rfl
@[simp] theorem xmStore_rsp (a : Word) (v : Byte) (s : State) : (xmStore s a v).rsp = s.rsp := rfl
@[simp] theorem xmStore_rstack (a : Word) (v : Byte) (s : State) : (xmStore s a v).rstack = s.rstack := rfl
@[simp] theorem xmStore_mieSaved (a : Word) (v : Byte) (s : State) : (xmStore s a v).mieSaved = s.mieSaved := rfl
@[simp] theorem xmStore_halted (a : Word) (v : Byte) (s : State) : (xmStore s a v).halted = s.halted := rfl
@[simp] theorem xmStore_ram (a : Word) (v : Byte) (s : State) : (xmStore s a v).ram = s.ram := rfl
@[simp] theorem xmStore_pm (a : Word) (v : Byte) (s : State) : (xmStore s a v).pm = s.pm := rfl
@[simp] theorem xmStore_device (a : Word) (v : Byte) (s : State) : (xmStore s a v).device = s.device := rfl
@[simp] theorem xmStore_env (a : Word) (v : Byte) (s : State) : (xmStore s a v).env = s.env := rfl
@[simp] theorem xmStore_draws (a : Word) (v : Byte) (s : State) : (xmStore s a v).draws = s.draws := rfl
@[simp] theorem xmStore_resets (a : Word) (v : Byte) (s : State) : (xmStore s a v).resets = s.resets := rfl
@[simp] theorem xmStore_cycles (a : Word) (v : Byte) (s : State) : (xmStore s a v).cycles = s.cycles := rfl
@[simp] theorem xmStore_trace (a : Word) (v : Byte) (s : State) : (xmStore s a v).trace = .xmWrite a v :: s.trace := rfl

/-! ## `indClose` -/

@[simp] theorem indClose_a (m : Ind) (k : Nat) (s : State) : (indClose m k s).a = s.a := by
  unfold indClose
  split <;> simp
@[simp] theorem indClose_z (m : Ind) (k : Nat) (s : State) : (indClose m k s).z = s.z := by
  unfold indClose
  split <;> simp
@[simp] theorem indClose_c (m : Ind) (k : Nat) (s : State) : (indClose m k s).c = s.c := by
  unfold indClose
  split <;> simp
@[simp] theorem indClose_mie (m : Ind) (k : Nat) (s : State) : (indClose m k s).mie = s.mie := by
  unfold indClose
  split <;> simp
@[simp] theorem indClose_cbr (m : Ind) (k : Nat) (s : State) : (indClose m k s).cbr = s.cbr := by
  unfold indClose
  split <;> simp
@[simp] theorem indClose_ebr (m : Ind) (k : Nat) (s : State) : (indClose m k s).ebr = s.ebr := by
  unfold indClose
  split <;> simp
@[simp] theorem indClose_ra0 (m : Ind) (k : Nat) (s : State) : (indClose m k s).ra0 = s.ra0 := by
  unfold indClose
  split <;> simp
@[simp] theorem indClose_ra1 (m : Ind) (k : Nat) (s : State) : (indClose m k s).ra1 = s.ra1 := by
  unfold indClose
  split <;> simp
@[simp] theorem indClose_ra2 (m : Ind) (k : Nat) (s : State) : (indClose m k s).ra2 = s.ra2 := by
  unfold indClose
  split <;> simp
@[simp] theorem indClose_ra3 (m : Ind) (k : Nat) (s : State) : (indClose m k s).ra3 = s.ra3 := by
  unfold indClose
  split <;> simp
@[simp] theorem indClose_pc (m : Ind) (k : Nat) (s : State) : (indClose m k s).pc = s.pc := by
  unfold indClose
  split <;> simp
@[simp] theorem indClose_sp (m : Ind) (k : Nat) (s : State) : (indClose m k s).sp = s.sp := by
  unfold indClose
  split <;> simp
@[simp] theorem indClose_cstack (m : Ind) (k : Nat) (s : State) : (indClose m k s).cstack = s.cstack := by
  unfold indClose
  split <;> simp
@[simp] theorem indClose_rsp (m : Ind) (k : Nat) (s : State) : (indClose m k s).rsp = s.rsp := by
  unfold indClose
  split <;> simp
@[simp] theorem indClose_rstack (m : Ind) (k : Nat) (s : State) : (indClose m k s).rstack = s.rstack := by
  unfold indClose
  split <;> simp
@[simp] theorem indClose_mieSaved (m : Ind) (k : Nat) (s : State) : (indClose m k s).mieSaved = s.mieSaved := by
  unfold indClose
  split <;> simp
@[simp] theorem indClose_halted (m : Ind) (k : Nat) (s : State) : (indClose m k s).halted = s.halted := by
  unfold indClose
  split <;> simp
@[simp] theorem indClose_ram (m : Ind) (k : Nat) (s : State) : (indClose m k s).ram = s.ram := by
  unfold indClose
  split <;> simp
@[simp] theorem indClose_pm (m : Ind) (k : Nat) (s : State) : (indClose m k s).pm = s.pm := by
  unfold indClose
  split <;> simp
@[simp] theorem indClose_xm (m : Ind) (k : Nat) (s : State) : (indClose m k s).xm = s.xm := by
  unfold indClose
  split <;> simp
@[simp] theorem indClose_device (m : Ind) (k : Nat) (s : State) : (indClose m k s).device = s.device := by
  unfold indClose
  split <;> simp
@[simp] theorem indClose_env (m : Ind) (k : Nat) (s : State) : (indClose m k s).env = s.env := by
  unfold indClose
  split <;> simp
@[simp] theorem indClose_trace (m : Ind) (k : Nat) (s : State) : (indClose m k s).trace = s.trace := by
  unfold indClose
  split <;> simp
@[simp] theorem indClose_draws (m : Ind) (k : Nat) (s : State) : (indClose m k s).draws = s.draws := by
  unfold indClose
  split <;> simp
@[simp] theorem indClose_resets (m : Ind) (k : Nat) (s : State) : (indClose m k s).resets = s.resets := by
  unfold indClose
  split <;> simp
@[simp] theorem indClose_cycles (m : Ind) (k : Nat) (s : State) : (indClose m k s).cycles = s.cycles := by
  unfold indClose
  split <;> simp

/-! ## `objClose` -/

@[simp] theorem objClose_a (o : Obj) (s : State) : (objClose o s).a = s.a := by cases o <;> simp [objClose]
@[simp] theorem objClose_z (o : Obj) (s : State) : (objClose o s).z = s.z := by cases o <;> simp [objClose]
@[simp] theorem objClose_c (o : Obj) (s : State) : (objClose o s).c = s.c := by cases o <;> simp [objClose]
@[simp] theorem objClose_mie (o : Obj) (s : State) : (objClose o s).mie = s.mie := by cases o <;> simp [objClose]
@[simp] theorem objClose_cbr (o : Obj) (s : State) : (objClose o s).cbr = s.cbr := by cases o <;> simp [objClose]
@[simp] theorem objClose_ebr (o : Obj) (s : State) : (objClose o s).ebr = s.ebr := by cases o <;> simp [objClose]
@[simp] theorem objClose_ra0 (o : Obj) (s : State) : (objClose o s).ra0 = s.ra0 := by cases o <;> simp [objClose]
@[simp] theorem objClose_ra1 (o : Obj) (s : State) : (objClose o s).ra1 = s.ra1 := by cases o <;> simp [objClose]
@[simp] theorem objClose_ra2 (o : Obj) (s : State) : (objClose o s).ra2 = s.ra2 := by cases o <;> simp [objClose]
@[simp] theorem objClose_ra3 (o : Obj) (s : State) : (objClose o s).ra3 = s.ra3 := by cases o <;> simp [objClose]
@[simp] theorem objClose_pc (o : Obj) (s : State) : (objClose o s).pc = s.pc := by cases o <;> simp [objClose]
@[simp] theorem objClose_sp (o : Obj) (s : State) : (objClose o s).sp = s.sp := by cases o <;> simp [objClose]
@[simp] theorem objClose_cstack (o : Obj) (s : State) : (objClose o s).cstack = s.cstack := by cases o <;> simp [objClose]
@[simp] theorem objClose_rsp (o : Obj) (s : State) : (objClose o s).rsp = s.rsp := by cases o <;> simp [objClose]
@[simp] theorem objClose_rstack (o : Obj) (s : State) : (objClose o s).rstack = s.rstack := by cases o <;> simp [objClose]
@[simp] theorem objClose_mieSaved (o : Obj) (s : State) : (objClose o s).mieSaved = s.mieSaved := by cases o <;> simp [objClose]
@[simp] theorem objClose_halted (o : Obj) (s : State) : (objClose o s).halted = s.halted := by cases o <;> simp [objClose]
@[simp] theorem objClose_ram (o : Obj) (s : State) : (objClose o s).ram = s.ram := by cases o <;> simp [objClose]
@[simp] theorem objClose_pm (o : Obj) (s : State) : (objClose o s).pm = s.pm := by cases o <;> simp [objClose]
@[simp] theorem objClose_xm (o : Obj) (s : State) : (objClose o s).xm = s.xm := by cases o <;> simp [objClose]
@[simp] theorem objClose_device (o : Obj) (s : State) : (objClose o s).device = s.device := by cases o <;> simp [objClose]
@[simp] theorem objClose_env (o : Obj) (s : State) : (objClose o s).env = s.env := by cases o <;> simp [objClose]
@[simp] theorem objClose_trace (o : Obj) (s : State) : (objClose o s).trace = s.trace := by cases o <;> simp [objClose]
@[simp] theorem objClose_draws (o : Obj) (s : State) : (objClose o s).draws = s.draws := by cases o <;> simp [objClose]
@[simp] theorem objClose_resets (o : Obj) (s : State) : (objClose o s).resets = s.resets := by cases o <;> simp [objClose]
@[simp] theorem objClose_cycles (o : Obj) (s : State) : (objClose o s).cycles = s.cycles := by cases o <;> simp [objClose]

/-! ## `applyOut` -/

@[simp] theorem applyOut_g (ea : DataAddr) (o : AluOut) (s : State) : (applyOut ea o s).g = s.g := by
  unfold applyOut
  split <;> simp
@[simp] theorem applyOut_mie (ea : DataAddr) (o : AluOut) (s : State) : (applyOut ea o s).mie = s.mie := by
  unfold applyOut
  split <;> simp
@[simp] theorem applyOut_pc (ea : DataAddr) (o : AluOut) (s : State) : (applyOut ea o s).pc = s.pc := by
  unfold applyOut
  split <;> simp
@[simp] theorem applyOut_sp (ea : DataAddr) (o : AluOut) (s : State) : (applyOut ea o s).sp = s.sp := by
  unfold applyOut
  split <;> simp
@[simp] theorem applyOut_cstack (ea : DataAddr) (o : AluOut) (s : State) : (applyOut ea o s).cstack = s.cstack := by
  unfold applyOut
  split <;> simp
@[simp] theorem applyOut_rstack (ea : DataAddr) (o : AluOut) (s : State) : (applyOut ea o s).rstack = s.rstack := by
  unfold applyOut
  split <;> simp
@[simp] theorem applyOut_mieSaved (ea : DataAddr) (o : AluOut) (s : State) : (applyOut ea o s).mieSaved = s.mieSaved := by
  unfold applyOut
  split <;> simp
@[simp] theorem applyOut_halted (ea : DataAddr) (o : AluOut) (s : State) : (applyOut ea o s).halted = s.halted := by
  unfold applyOut
  split <;> simp
@[simp] theorem applyOut_pm (ea : DataAddr) (o : AluOut) (s : State) : (applyOut ea o s).pm = s.pm := by
  unfold applyOut
  split <;> simp
@[simp] theorem applyOut_xm (ea : DataAddr) (o : AluOut) (s : State) : (applyOut ea o s).xm = s.xm := by
  unfold applyOut
  split <;> simp
@[simp] theorem applyOut_device (ea : DataAddr) (o : AluOut) (s : State) : (applyOut ea o s).device = s.device := by
  unfold applyOut
  split <;> simp
@[simp] theorem applyOut_env (ea : DataAddr) (o : AluOut) (s : State) : (applyOut ea o s).env = s.env := by
  unfold applyOut
  split <;> simp
@[simp] theorem applyOut_draws (ea : DataAddr) (o : AluOut) (s : State) : (applyOut ea o s).draws = s.draws := by
  unfold applyOut
  split <;> simp
@[simp] theorem applyOut_resets (ea : DataAddr) (o : AluOut) (s : State) : (applyOut ea o s).resets = s.resets := by
  unfold applyOut
  split <;> simp
@[simp] theorem applyOut_cycles (ea : DataAddr) (o : AluOut) (s : State) : (applyOut ea o s).cycles = s.cycles := by
  unfold applyOut
  split <;> simp

/-! ## `callPush` -/

@[simp] theorem callPush_a (w : Word) (s : State) : (callPush w s).a = s.a := rfl
@[simp] theorem callPush_z (w : Word) (s : State) : (callPush w s).z = s.z := rfl
@[simp] theorem callPush_c (w : Word) (s : State) : (callPush w s).c = s.c := rfl
@[simp] theorem callPush_g (w : Word) (s : State) : (callPush w s).g = s.g := rfl
@[simp] theorem callPush_mie (w : Word) (s : State) : (callPush w s).mie = s.mie := rfl
@[simp] theorem callPush_h (w : Word) (s : State) : (callPush w s).h = s.h := rfl
@[simp] theorem callPush_l (w : Word) (s : State) : (callPush w s).l = s.l := rfl
@[simp] theorem callPush_x (w : Word) (s : State) : (callPush w s).x = s.x := rfl
@[simp] theorem callPush_y (w : Word) (s : State) : (callPush w s).y = s.y := rfl
@[simp] theorem callPush_cbr (w : Word) (s : State) : (callPush w s).cbr = s.cbr := rfl
@[simp] theorem callPush_ebr (w : Word) (s : State) : (callPush w s).ebr = s.ebr := rfl
@[simp] theorem callPush_ra0 (w : Word) (s : State) : (callPush w s).ra0 = s.ra0 := rfl
@[simp] theorem callPush_ra1 (w : Word) (s : State) : (callPush w s).ra1 = s.ra1 := rfl
@[simp] theorem callPush_ra2 (w : Word) (s : State) : (callPush w s).ra2 = s.ra2 := rfl
@[simp] theorem callPush_ra3 (w : Word) (s : State) : (callPush w s).ra3 = s.ra3 := rfl
@[simp] theorem callPush_pc (w : Word) (s : State) : (callPush w s).pc = s.pc := rfl
@[simp] theorem callPush_rsp (w : Word) (s : State) : (callPush w s).rsp = s.rsp := rfl
@[simp] theorem callPush_rstack (w : Word) (s : State) : (callPush w s).rstack = s.rstack := rfl
@[simp] theorem callPush_mieSaved (w : Word) (s : State) : (callPush w s).mieSaved = s.mieSaved := rfl
@[simp] theorem callPush_halted (w : Word) (s : State) : (callPush w s).halted = s.halted := rfl
@[simp] theorem callPush_ram (w : Word) (s : State) : (callPush w s).ram = s.ram := rfl
@[simp] theorem callPush_pm (w : Word) (s : State) : (callPush w s).pm = s.pm := rfl
@[simp] theorem callPush_xm (w : Word) (s : State) : (callPush w s).xm = s.xm := rfl
@[simp] theorem callPush_device (w : Word) (s : State) : (callPush w s).device = s.device := rfl
@[simp] theorem callPush_env (w : Word) (s : State) : (callPush w s).env = s.env := rfl
@[simp] theorem callPush_trace (w : Word) (s : State) : (callPush w s).trace = s.trace := rfl
@[simp] theorem callPush_draws (w : Word) (s : State) : (callPush w s).draws = s.draws := rfl
@[simp] theorem callPush_resets (w : Word) (s : State) : (callPush w s).resets = s.resets := rfl
@[simp] theorem callPush_cycles (w : Word) (s : State) : (callPush w s).cycles = s.cycles := rfl
@[simp] theorem callPush_sp (w : Word) (s : State) : (callPush w s).sp = s.sp + 1 := rfl
@[simp] theorem callPush_cstack (w : Word) (s : State) :
    (callPush w s).cstack = s.cstack.set s.sp.toNat w s.sp.isLt := rfl

/-! ## `callReturn` -/

@[simp] theorem callReturn_a (s : State) : (callReturn s).a = s.a := rfl
@[simp] theorem callReturn_z (s : State) : (callReturn s).z = s.z := rfl
@[simp] theorem callReturn_c (s : State) : (callReturn s).c = s.c := rfl
@[simp] theorem callReturn_g (s : State) : (callReturn s).g = s.g := rfl
@[simp] theorem callReturn_mie (s : State) : (callReturn s).mie = s.mie := rfl
@[simp] theorem callReturn_h (s : State) : (callReturn s).h = s.h := rfl
@[simp] theorem callReturn_l (s : State) : (callReturn s).l = s.l := rfl
@[simp] theorem callReturn_x (s : State) : (callReturn s).x = s.x := rfl
@[simp] theorem callReturn_y (s : State) : (callReturn s).y = s.y := rfl
@[simp] theorem callReturn_cbr (s : State) : (callReturn s).cbr = s.cbr := rfl
@[simp] theorem callReturn_ebr (s : State) : (callReturn s).ebr = s.ebr := rfl
@[simp] theorem callReturn_ra0 (s : State) : (callReturn s).ra0 = s.ra0 := rfl
@[simp] theorem callReturn_ra1 (s : State) : (callReturn s).ra1 = s.ra1 := rfl
@[simp] theorem callReturn_ra2 (s : State) : (callReturn s).ra2 = s.ra2 := rfl
@[simp] theorem callReturn_ra3 (s : State) : (callReturn s).ra3 = s.ra3 := rfl
@[simp] theorem callReturn_cstack (s : State) : (callReturn s).cstack = s.cstack := rfl
@[simp] theorem callReturn_rsp (s : State) : (callReturn s).rsp = s.rsp := rfl
@[simp] theorem callReturn_rstack (s : State) : (callReturn s).rstack = s.rstack := rfl
@[simp] theorem callReturn_mieSaved (s : State) : (callReturn s).mieSaved = s.mieSaved := rfl
@[simp] theorem callReturn_halted (s : State) : (callReturn s).halted = s.halted := rfl
@[simp] theorem callReturn_ram (s : State) : (callReturn s).ram = s.ram := rfl
@[simp] theorem callReturn_pm (s : State) : (callReturn s).pm = s.pm := rfl
@[simp] theorem callReturn_xm (s : State) : (callReturn s).xm = s.xm := rfl
@[simp] theorem callReturn_device (s : State) : (callReturn s).device = s.device := rfl
@[simp] theorem callReturn_env (s : State) : (callReturn s).env = s.env := rfl
@[simp] theorem callReturn_trace (s : State) : (callReturn s).trace = s.trace := rfl
@[simp] theorem callReturn_draws (s : State) : (callReturn s).draws = s.draws := rfl
@[simp] theorem callReturn_resets (s : State) : (callReturn s).resets = s.resets := rfl
@[simp] theorem callReturn_cycles (s : State) : (callReturn s).cycles = s.cycles := rfl
@[simp] theorem callReturn_sp (s : State) : (callReturn s).sp = s.sp - 1 := rfl
@[simp] theorem callReturn_pc (s : State) : (callReturn s).pc = callSlot s (s.sp - 1) + 1 := rfl

/-! ## `regPush` -/

@[simp] theorem regPush_a (w : Word) (s : State) : (regPush w s).a = s.a := rfl
@[simp] theorem regPush_z (w : Word) (s : State) : (regPush w s).z = s.z := rfl
@[simp] theorem regPush_c (w : Word) (s : State) : (regPush w s).c = s.c := rfl
@[simp] theorem regPush_g (w : Word) (s : State) : (regPush w s).g = s.g := rfl
@[simp] theorem regPush_mie (w : Word) (s : State) : (regPush w s).mie = s.mie := rfl
@[simp] theorem regPush_h (w : Word) (s : State) : (regPush w s).h = s.h := rfl
@[simp] theorem regPush_l (w : Word) (s : State) : (regPush w s).l = s.l := rfl
@[simp] theorem regPush_x (w : Word) (s : State) : (regPush w s).x = s.x := rfl
@[simp] theorem regPush_y (w : Word) (s : State) : (regPush w s).y = s.y := rfl
@[simp] theorem regPush_cbr (w : Word) (s : State) : (regPush w s).cbr = s.cbr := rfl
@[simp] theorem regPush_ebr (w : Word) (s : State) : (regPush w s).ebr = s.ebr := rfl
@[simp] theorem regPush_ra0 (w : Word) (s : State) : (regPush w s).ra0 = s.ra0 := rfl
@[simp] theorem regPush_ra1 (w : Word) (s : State) : (regPush w s).ra1 = s.ra1 := rfl
@[simp] theorem regPush_ra2 (w : Word) (s : State) : (regPush w s).ra2 = s.ra2 := rfl
@[simp] theorem regPush_ra3 (w : Word) (s : State) : (regPush w s).ra3 = s.ra3 := rfl
@[simp] theorem regPush_pc (w : Word) (s : State) : (regPush w s).pc = s.pc := rfl
@[simp] theorem regPush_sp (w : Word) (s : State) : (regPush w s).sp = s.sp := rfl
@[simp] theorem regPush_cstack (w : Word) (s : State) : (regPush w s).cstack = s.cstack := rfl
@[simp] theorem regPush_mieSaved (w : Word) (s : State) : (regPush w s).mieSaved = s.mieSaved := rfl
@[simp] theorem regPush_halted (w : Word) (s : State) : (regPush w s).halted = s.halted := rfl
@[simp] theorem regPush_ram (w : Word) (s : State) : (regPush w s).ram = s.ram := rfl
@[simp] theorem regPush_pm (w : Word) (s : State) : (regPush w s).pm = s.pm := rfl
@[simp] theorem regPush_xm (w : Word) (s : State) : (regPush w s).xm = s.xm := rfl
@[simp] theorem regPush_device (w : Word) (s : State) : (regPush w s).device = s.device := rfl
@[simp] theorem regPush_env (w : Word) (s : State) : (regPush w s).env = s.env := rfl
@[simp] theorem regPush_trace (w : Word) (s : State) : (regPush w s).trace = s.trace := rfl
@[simp] theorem regPush_draws (w : Word) (s : State) : (regPush w s).draws = s.draws := rfl
@[simp] theorem regPush_resets (w : Word) (s : State) : (regPush w s).resets = s.resets := rfl
@[simp] theorem regPush_cycles (w : Word) (s : State) : (regPush w s).cycles = s.cycles := rfl
@[simp] theorem regPush_rsp (w : Word) (s : State) : (regPush w s).rsp = s.rsp + 1 := rfl
@[simp] theorem regPush_rstack (w : Word) (s : State) :
    (regPush w s).rstack = s.rstack.set s.rsp.toNat w s.rsp.isLt := rfl

/-! ## `restoreHl` -/

@[simp] theorem restoreHl_mie (w : Word) (s : State) : (restoreHl w s).mie = s.mie := rfl
@[simp] theorem restoreHl_x (w : Word) (s : State) : (restoreHl w s).x = s.x := rfl
@[simp] theorem restoreHl_y (w : Word) (s : State) : (restoreHl w s).y = s.y := rfl
@[simp] theorem restoreHl_cbr (w : Word) (s : State) : (restoreHl w s).cbr = s.cbr := rfl
@[simp] theorem restoreHl_ebr (w : Word) (s : State) : (restoreHl w s).ebr = s.ebr := rfl
@[simp] theorem restoreHl_ra0 (w : Word) (s : State) : (restoreHl w s).ra0 = s.ra0 := rfl
@[simp] theorem restoreHl_ra1 (w : Word) (s : State) : (restoreHl w s).ra1 = s.ra1 := rfl
@[simp] theorem restoreHl_ra2 (w : Word) (s : State) : (restoreHl w s).ra2 = s.ra2 := rfl
@[simp] theorem restoreHl_ra3 (w : Word) (s : State) : (restoreHl w s).ra3 = s.ra3 := rfl
@[simp] theorem restoreHl_pc (w : Word) (s : State) : (restoreHl w s).pc = s.pc := rfl
@[simp] theorem restoreHl_sp (w : Word) (s : State) : (restoreHl w s).sp = s.sp := rfl
@[simp] theorem restoreHl_cstack (w : Word) (s : State) : (restoreHl w s).cstack = s.cstack := rfl
@[simp] theorem restoreHl_rsp (w : Word) (s : State) : (restoreHl w s).rsp = s.rsp := rfl
@[simp] theorem restoreHl_rstack (w : Word) (s : State) : (restoreHl w s).rstack = s.rstack := rfl
@[simp] theorem restoreHl_mieSaved (w : Word) (s : State) : (restoreHl w s).mieSaved = s.mieSaved := rfl
@[simp] theorem restoreHl_halted (w : Word) (s : State) : (restoreHl w s).halted = s.halted := rfl
@[simp] theorem restoreHl_ram (w : Word) (s : State) : (restoreHl w s).ram = s.ram := rfl
@[simp] theorem restoreHl_pm (w : Word) (s : State) : (restoreHl w s).pm = s.pm := rfl
@[simp] theorem restoreHl_xm (w : Word) (s : State) : (restoreHl w s).xm = s.xm := rfl
@[simp] theorem restoreHl_device (w : Word) (s : State) : (restoreHl w s).device = s.device := rfl
@[simp] theorem restoreHl_env (w : Word) (s : State) : (restoreHl w s).env = s.env := rfl
@[simp] theorem restoreHl_trace (w : Word) (s : State) : (restoreHl w s).trace = s.trace := rfl
@[simp] theorem restoreHl_draws (w : Word) (s : State) : (restoreHl w s).draws = s.draws := rfl
@[simp] theorem restoreHl_resets (w : Word) (s : State) : (restoreHl w s).resets = s.resets := rfl
@[simp] theorem restoreHl_cycles (w : Word) (s : State) : (restoreHl w s).cycles = s.cycles := rfl

/-! ## `restoreXy` -/

@[simp] theorem restoreXy_a (w : Word) (s : State) : (restoreXy w s).a = s.a := rfl
@[simp] theorem restoreXy_z (w : Word) (s : State) : (restoreXy w s).z = s.z := rfl
@[simp] theorem restoreXy_c (w : Word) (s : State) : (restoreXy w s).c = s.c := rfl
@[simp] theorem restoreXy_g (w : Word) (s : State) : (restoreXy w s).g = s.g := rfl
@[simp] theorem restoreXy_mie (w : Word) (s : State) : (restoreXy w s).mie = s.mie := rfl
@[simp] theorem restoreXy_h (w : Word) (s : State) : (restoreXy w s).h = s.h := rfl
@[simp] theorem restoreXy_l (w : Word) (s : State) : (restoreXy w s).l = s.l := rfl
@[simp] theorem restoreXy_ra0 (w : Word) (s : State) : (restoreXy w s).ra0 = s.ra0 := rfl
@[simp] theorem restoreXy_ra1 (w : Word) (s : State) : (restoreXy w s).ra1 = s.ra1 := rfl
@[simp] theorem restoreXy_ra2 (w : Word) (s : State) : (restoreXy w s).ra2 = s.ra2 := rfl
@[simp] theorem restoreXy_ra3 (w : Word) (s : State) : (restoreXy w s).ra3 = s.ra3 := rfl
@[simp] theorem restoreXy_pc (w : Word) (s : State) : (restoreXy w s).pc = s.pc := rfl
@[simp] theorem restoreXy_sp (w : Word) (s : State) : (restoreXy w s).sp = s.sp := rfl
@[simp] theorem restoreXy_cstack (w : Word) (s : State) : (restoreXy w s).cstack = s.cstack := rfl
@[simp] theorem restoreXy_rsp (w : Word) (s : State) : (restoreXy w s).rsp = s.rsp := rfl
@[simp] theorem restoreXy_rstack (w : Word) (s : State) : (restoreXy w s).rstack = s.rstack := rfl
@[simp] theorem restoreXy_mieSaved (w : Word) (s : State) : (restoreXy w s).mieSaved = s.mieSaved := rfl
@[simp] theorem restoreXy_halted (w : Word) (s : State) : (restoreXy w s).halted = s.halted := rfl
@[simp] theorem restoreXy_ram (w : Word) (s : State) : (restoreXy w s).ram = s.ram := rfl
@[simp] theorem restoreXy_pm (w : Word) (s : State) : (restoreXy w s).pm = s.pm := rfl
@[simp] theorem restoreXy_xm (w : Word) (s : State) : (restoreXy w s).xm = s.xm := rfl
@[simp] theorem restoreXy_device (w : Word) (s : State) : (restoreXy w s).device = s.device := rfl
@[simp] theorem restoreXy_env (w : Word) (s : State) : (restoreXy w s).env = s.env := rfl
@[simp] theorem restoreXy_trace (w : Word) (s : State) : (restoreXy w s).trace = s.trace := rfl
@[simp] theorem restoreXy_draws (w : Word) (s : State) : (restoreXy w s).draws = s.draws := rfl
@[simp] theorem restoreXy_resets (w : Word) (s : State) : (restoreXy w s).resets = s.resets := rfl
@[simp] theorem restoreXy_cycles (w : Word) (s : State) : (restoreXy w s).cycles = s.cycles := rfl

/-! ## `setFlags` -/

@[simp] theorem setFlags_a (f : FlagSel) (v : Bool) (s : State) : (setFlags f v s).a = s.a := by cases f <;> rfl
@[simp] theorem setFlags_mie (f : FlagSel) (v : Bool) (s : State) : (setFlags f v s).mie = s.mie := by cases f <;> rfl
@[simp] theorem setFlags_h (f : FlagSel) (v : Bool) (s : State) : (setFlags f v s).h = s.h := by cases f <;> rfl
@[simp] theorem setFlags_l (f : FlagSel) (v : Bool) (s : State) : (setFlags f v s).l = s.l := by cases f <;> rfl
@[simp] theorem setFlags_x (f : FlagSel) (v : Bool) (s : State) : (setFlags f v s).x = s.x := by cases f <;> rfl
@[simp] theorem setFlags_y (f : FlagSel) (v : Bool) (s : State) : (setFlags f v s).y = s.y := by cases f <;> rfl
@[simp] theorem setFlags_cbr (f : FlagSel) (v : Bool) (s : State) : (setFlags f v s).cbr = s.cbr := by cases f <;> rfl
@[simp] theorem setFlags_ebr (f : FlagSel) (v : Bool) (s : State) : (setFlags f v s).ebr = s.ebr := by cases f <;> rfl
@[simp] theorem setFlags_ra0 (f : FlagSel) (v : Bool) (s : State) : (setFlags f v s).ra0 = s.ra0 := by cases f <;> rfl
@[simp] theorem setFlags_ra1 (f : FlagSel) (v : Bool) (s : State) : (setFlags f v s).ra1 = s.ra1 := by cases f <;> rfl
@[simp] theorem setFlags_ra2 (f : FlagSel) (v : Bool) (s : State) : (setFlags f v s).ra2 = s.ra2 := by cases f <;> rfl
@[simp] theorem setFlags_ra3 (f : FlagSel) (v : Bool) (s : State) : (setFlags f v s).ra3 = s.ra3 := by cases f <;> rfl
@[simp] theorem setFlags_pc (f : FlagSel) (v : Bool) (s : State) : (setFlags f v s).pc = s.pc := by cases f <;> rfl
@[simp] theorem setFlags_sp (f : FlagSel) (v : Bool) (s : State) : (setFlags f v s).sp = s.sp := by cases f <;> rfl
@[simp] theorem setFlags_cstack (f : FlagSel) (v : Bool) (s : State) : (setFlags f v s).cstack = s.cstack := by cases f <;> rfl
@[simp] theorem setFlags_rsp (f : FlagSel) (v : Bool) (s : State) : (setFlags f v s).rsp = s.rsp := by cases f <;> rfl
@[simp] theorem setFlags_rstack (f : FlagSel) (v : Bool) (s : State) : (setFlags f v s).rstack = s.rstack := by cases f <;> rfl
@[simp] theorem setFlags_mieSaved (f : FlagSel) (v : Bool) (s : State) : (setFlags f v s).mieSaved = s.mieSaved := by cases f <;> rfl
@[simp] theorem setFlags_halted (f : FlagSel) (v : Bool) (s : State) : (setFlags f v s).halted = s.halted := by cases f <;> rfl
@[simp] theorem setFlags_ram (f : FlagSel) (v : Bool) (s : State) : (setFlags f v s).ram = s.ram := by cases f <;> rfl
@[simp] theorem setFlags_pm (f : FlagSel) (v : Bool) (s : State) : (setFlags f v s).pm = s.pm := by cases f <;> rfl
@[simp] theorem setFlags_xm (f : FlagSel) (v : Bool) (s : State) : (setFlags f v s).xm = s.xm := by cases f <;> rfl
@[simp] theorem setFlags_device (f : FlagSel) (v : Bool) (s : State) : (setFlags f v s).device = s.device := by cases f <;> rfl
@[simp] theorem setFlags_env (f : FlagSel) (v : Bool) (s : State) : (setFlags f v s).env = s.env := by cases f <;> rfl
@[simp] theorem setFlags_trace (f : FlagSel) (v : Bool) (s : State) : (setFlags f v s).trace = s.trace := by cases f <;> rfl
@[simp] theorem setFlags_draws (f : FlagSel) (v : Bool) (s : State) : (setFlags f v s).draws = s.draws := by cases f <;> rfl
@[simp] theorem setFlags_resets (f : FlagSel) (v : Bool) (s : State) : (setFlags f v s).resets = s.resets := by cases f <;> rfl
@[simp] theorem setFlags_cycles (f : FlagSel) (v : Bool) (s : State) : (setFlags f v s).cycles = s.cycles := by cases f <;> rfl

/-! ## `enterInterrupt` -/

@[simp] theorem enterInterrupt_a (v : StartAddress) (s : State) : (enterInterrupt v s).a = s.a := rfl
@[simp] theorem enterInterrupt_z (v : StartAddress) (s : State) : (enterInterrupt v s).z = s.z := rfl
@[simp] theorem enterInterrupt_c (v : StartAddress) (s : State) : (enterInterrupt v s).c = s.c := rfl
@[simp] theorem enterInterrupt_g (v : StartAddress) (s : State) : (enterInterrupt v s).g = s.g := rfl
@[simp] theorem enterInterrupt_h (v : StartAddress) (s : State) : (enterInterrupt v s).h = s.h := rfl
@[simp] theorem enterInterrupt_l (v : StartAddress) (s : State) : (enterInterrupt v s).l = s.l := rfl
@[simp] theorem enterInterrupt_x (v : StartAddress) (s : State) : (enterInterrupt v s).x = s.x := rfl
@[simp] theorem enterInterrupt_y (v : StartAddress) (s : State) : (enterInterrupt v s).y = s.y := rfl
@[simp] theorem enterInterrupt_cbr (v : StartAddress) (s : State) : (enterInterrupt v s).cbr = s.cbr := rfl
@[simp] theorem enterInterrupt_ebr (v : StartAddress) (s : State) : (enterInterrupt v s).ebr = s.ebr := rfl
@[simp] theorem enterInterrupt_ra0 (v : StartAddress) (s : State) : (enterInterrupt v s).ra0 = s.ra0 := rfl
@[simp] theorem enterInterrupt_ra1 (v : StartAddress) (s : State) : (enterInterrupt v s).ra1 = s.ra1 := rfl
@[simp] theorem enterInterrupt_ra2 (v : StartAddress) (s : State) : (enterInterrupt v s).ra2 = s.ra2 := rfl
@[simp] theorem enterInterrupt_ra3 (v : StartAddress) (s : State) : (enterInterrupt v s).ra3 = s.ra3 := rfl
@[simp] theorem enterInterrupt_rsp (v : StartAddress) (s : State) : (enterInterrupt v s).rsp = s.rsp := rfl
@[simp] theorem enterInterrupt_rstack (v : StartAddress) (s : State) : (enterInterrupt v s).rstack = s.rstack := rfl
@[simp] theorem enterInterrupt_mieSaved (v : StartAddress) (s : State) : (enterInterrupt v s).mieSaved = s.mieSaved := rfl
@[simp] theorem enterInterrupt_halted (v : StartAddress) (s : State) : (enterInterrupt v s).halted = s.halted := rfl
@[simp] theorem enterInterrupt_ram (v : StartAddress) (s : State) : (enterInterrupt v s).ram = s.ram := rfl
@[simp] theorem enterInterrupt_pm (v : StartAddress) (s : State) : (enterInterrupt v s).pm = s.pm := rfl
@[simp] theorem enterInterrupt_xm (v : StartAddress) (s : State) : (enterInterrupt v s).xm = s.xm := rfl
@[simp] theorem enterInterrupt_device (v : StartAddress) (s : State) : (enterInterrupt v s).device = s.device := rfl
@[simp] theorem enterInterrupt_env (v : StartAddress) (s : State) : (enterInterrupt v s).env = s.env := rfl
@[simp] theorem enterInterrupt_trace (v : StartAddress) (s : State) : (enterInterrupt v s).trace = s.trace := rfl
@[simp] theorem enterInterrupt_draws (v : StartAddress) (s : State) : (enterInterrupt v s).draws = s.draws := rfl
@[simp] theorem enterInterrupt_resets (v : StartAddress) (s : State) : (enterInterrupt v s).resets = s.resets := rfl
@[simp] theorem enterInterrupt_cycles (v : StartAddress) (s : State) : (enterInterrupt v s).cycles = s.cycles := rfl
@[simp] theorem enterInterrupt_pc (v : StartAddress) (s : State) : (enterInterrupt v s).pc = startWord v := rfl
@[simp] theorem enterInterrupt_mie (v : StartAddress) (s : State) : (enterInterrupt v s).mie = false := rfl
@[simp] theorem enterInterrupt_sp (v : StartAddress) (s : State) : (enterInterrupt v s).sp = s.sp + 1 := rfl

/-! ## `acceptIrq` -/

@[simp] theorem acceptIrq_a (v : StartAddress) (s : State) : (acceptIrq v s).a = s.a := rfl
@[simp] theorem acceptIrq_z (v : StartAddress) (s : State) : (acceptIrq v s).z = s.z := rfl
@[simp] theorem acceptIrq_c (v : StartAddress) (s : State) : (acceptIrq v s).c = s.c := rfl
@[simp] theorem acceptIrq_g (v : StartAddress) (s : State) : (acceptIrq v s).g = s.g := rfl
@[simp] theorem acceptIrq_h (v : StartAddress) (s : State) : (acceptIrq v s).h = s.h := rfl
@[simp] theorem acceptIrq_l (v : StartAddress) (s : State) : (acceptIrq v s).l = s.l := rfl
@[simp] theorem acceptIrq_x (v : StartAddress) (s : State) : (acceptIrq v s).x = s.x := rfl
@[simp] theorem acceptIrq_y (v : StartAddress) (s : State) : (acceptIrq v s).y = s.y := rfl
@[simp] theorem acceptIrq_cbr (v : StartAddress) (s : State) : (acceptIrq v s).cbr = s.cbr := rfl
@[simp] theorem acceptIrq_ebr (v : StartAddress) (s : State) : (acceptIrq v s).ebr = s.ebr := rfl
@[simp] theorem acceptIrq_ra0 (v : StartAddress) (s : State) : (acceptIrq v s).ra0 = s.ra0 := rfl
@[simp] theorem acceptIrq_ra1 (v : StartAddress) (s : State) : (acceptIrq v s).ra1 = s.ra1 := rfl
@[simp] theorem acceptIrq_ra2 (v : StartAddress) (s : State) : (acceptIrq v s).ra2 = s.ra2 := rfl
@[simp] theorem acceptIrq_ra3 (v : StartAddress) (s : State) : (acceptIrq v s).ra3 = s.ra3 := rfl
@[simp] theorem acceptIrq_rsp (v : StartAddress) (s : State) : (acceptIrq v s).rsp = s.rsp := rfl
@[simp] theorem acceptIrq_rstack (v : StartAddress) (s : State) : (acceptIrq v s).rstack = s.rstack := rfl
@[simp] theorem acceptIrq_mieSaved (v : StartAddress) (s : State) : (acceptIrq v s).mieSaved = s.mieSaved := rfl
@[simp] theorem acceptIrq_halted (v : StartAddress) (s : State) : (acceptIrq v s).halted = s.halted := rfl
@[simp] theorem acceptIrq_ram (v : StartAddress) (s : State) : (acceptIrq v s).ram = s.ram := rfl
@[simp] theorem acceptIrq_pm (v : StartAddress) (s : State) : (acceptIrq v s).pm = s.pm := rfl
@[simp] theorem acceptIrq_xm (v : StartAddress) (s : State) : (acceptIrq v s).xm = s.xm := rfl
@[simp] theorem acceptIrq_device (v : StartAddress) (s : State) : (acceptIrq v s).device = s.device := rfl
@[simp] theorem acceptIrq_env (v : StartAddress) (s : State) : (acceptIrq v s).env = s.env := rfl
@[simp] theorem acceptIrq_trace (v : StartAddress) (s : State) : (acceptIrq v s).trace = s.trace := rfl
@[simp] theorem acceptIrq_draws (v : StartAddress) (s : State) : (acceptIrq v s).draws = s.draws := rfl
@[simp] theorem acceptIrq_resets (v : StartAddress) (s : State) : (acceptIrq v s).resets = s.resets := rfl
@[simp] theorem acceptIrq_cycles (v : StartAddress) (s : State) : (acceptIrq v s).cycles = s.cycles := rfl

/-! ## `acceptNmi` -/

@[simp] theorem acceptNmi_a (v : StartAddress) (s : State) : (acceptNmi v s).a = s.a := rfl
@[simp] theorem acceptNmi_z (v : StartAddress) (s : State) : (acceptNmi v s).z = s.z := rfl
@[simp] theorem acceptNmi_c (v : StartAddress) (s : State) : (acceptNmi v s).c = s.c := rfl
@[simp] theorem acceptNmi_g (v : StartAddress) (s : State) : (acceptNmi v s).g = s.g := rfl
@[simp] theorem acceptNmi_h (v : StartAddress) (s : State) : (acceptNmi v s).h = s.h := rfl
@[simp] theorem acceptNmi_l (v : StartAddress) (s : State) : (acceptNmi v s).l = s.l := rfl
@[simp] theorem acceptNmi_x (v : StartAddress) (s : State) : (acceptNmi v s).x = s.x := rfl
@[simp] theorem acceptNmi_y (v : StartAddress) (s : State) : (acceptNmi v s).y = s.y := rfl
@[simp] theorem acceptNmi_cbr (v : StartAddress) (s : State) : (acceptNmi v s).cbr = s.cbr := rfl
@[simp] theorem acceptNmi_ebr (v : StartAddress) (s : State) : (acceptNmi v s).ebr = s.ebr := rfl
@[simp] theorem acceptNmi_ra0 (v : StartAddress) (s : State) : (acceptNmi v s).ra0 = s.ra0 := rfl
@[simp] theorem acceptNmi_ra1 (v : StartAddress) (s : State) : (acceptNmi v s).ra1 = s.ra1 := rfl
@[simp] theorem acceptNmi_ra2 (v : StartAddress) (s : State) : (acceptNmi v s).ra2 = s.ra2 := rfl
@[simp] theorem acceptNmi_ra3 (v : StartAddress) (s : State) : (acceptNmi v s).ra3 = s.ra3 := rfl
@[simp] theorem acceptNmi_rsp (v : StartAddress) (s : State) : (acceptNmi v s).rsp = s.rsp := rfl
@[simp] theorem acceptNmi_rstack (v : StartAddress) (s : State) : (acceptNmi v s).rstack = s.rstack := rfl
@[simp] theorem acceptNmi_halted (v : StartAddress) (s : State) : (acceptNmi v s).halted = s.halted := rfl
@[simp] theorem acceptNmi_ram (v : StartAddress) (s : State) : (acceptNmi v s).ram = s.ram := rfl
@[simp] theorem acceptNmi_pm (v : StartAddress) (s : State) : (acceptNmi v s).pm = s.pm := rfl
@[simp] theorem acceptNmi_xm (v : StartAddress) (s : State) : (acceptNmi v s).xm = s.xm := rfl
@[simp] theorem acceptNmi_device (v : StartAddress) (s : State) : (acceptNmi v s).device = s.device := rfl
@[simp] theorem acceptNmi_env (v : StartAddress) (s : State) : (acceptNmi v s).env = s.env := rfl
@[simp] theorem acceptNmi_trace (v : StartAddress) (s : State) : (acceptNmi v s).trace = s.trace := rfl
@[simp] theorem acceptNmi_draws (v : StartAddress) (s : State) : (acceptNmi v s).draws = s.draws := rfl
@[simp] theorem acceptNmi_resets (v : StartAddress) (s : State) : (acceptNmi v s).resets = s.resets := rfl
@[simp] theorem acceptNmi_cycles (v : StartAddress) (s : State) : (acceptNmi v s).cycles = s.cycles := rfl
@[simp] theorem acceptNmi_mieSaved (v : StartAddress) (s : State) : (acceptNmi v s).mieSaved = s.mie := rfl

/-! ## `placeWords` -/

@[simp] theorem placeWords_a (a w0 w1 : Word) (s : State) : (placeWords s a w0 w1).a = s.a := rfl
@[simp] theorem placeWords_z (a w0 w1 : Word) (s : State) : (placeWords s a w0 w1).z = s.z := rfl
@[simp] theorem placeWords_c (a w0 w1 : Word) (s : State) : (placeWords s a w0 w1).c = s.c := rfl
@[simp] theorem placeWords_g (a w0 w1 : Word) (s : State) : (placeWords s a w0 w1).g = s.g := rfl
@[simp] theorem placeWords_mie (a w0 w1 : Word) (s : State) : (placeWords s a w0 w1).mie = s.mie := rfl
@[simp] theorem placeWords_h (a w0 w1 : Word) (s : State) : (placeWords s a w0 w1).h = s.h := rfl
@[simp] theorem placeWords_l (a w0 w1 : Word) (s : State) : (placeWords s a w0 w1).l = s.l := rfl
@[simp] theorem placeWords_x (a w0 w1 : Word) (s : State) : (placeWords s a w0 w1).x = s.x := rfl
@[simp] theorem placeWords_y (a w0 w1 : Word) (s : State) : (placeWords s a w0 w1).y = s.y := rfl
@[simp] theorem placeWords_cbr (a w0 w1 : Word) (s : State) : (placeWords s a w0 w1).cbr = s.cbr := rfl
@[simp] theorem placeWords_ebr (a w0 w1 : Word) (s : State) : (placeWords s a w0 w1).ebr = s.ebr := rfl
@[simp] theorem placeWords_ra0 (a w0 w1 : Word) (s : State) : (placeWords s a w0 w1).ra0 = s.ra0 := rfl
@[simp] theorem placeWords_ra1 (a w0 w1 : Word) (s : State) : (placeWords s a w0 w1).ra1 = s.ra1 := rfl
@[simp] theorem placeWords_ra2 (a w0 w1 : Word) (s : State) : (placeWords s a w0 w1).ra2 = s.ra2 := rfl
@[simp] theorem placeWords_ra3 (a w0 w1 : Word) (s : State) : (placeWords s a w0 w1).ra3 = s.ra3 := rfl
@[simp] theorem placeWords_pc (a w0 w1 : Word) (s : State) : (placeWords s a w0 w1).pc = s.pc := rfl
@[simp] theorem placeWords_sp (a w0 w1 : Word) (s : State) : (placeWords s a w0 w1).sp = s.sp := rfl
@[simp] theorem placeWords_cstack (a w0 w1 : Word) (s : State) : (placeWords s a w0 w1).cstack = s.cstack := rfl
@[simp] theorem placeWords_rsp (a w0 w1 : Word) (s : State) : (placeWords s a w0 w1).rsp = s.rsp := rfl
@[simp] theorem placeWords_rstack (a w0 w1 : Word) (s : State) : (placeWords s a w0 w1).rstack = s.rstack := rfl
@[simp] theorem placeWords_mieSaved (a w0 w1 : Word) (s : State) : (placeWords s a w0 w1).mieSaved = s.mieSaved := rfl
@[simp] theorem placeWords_halted (a w0 w1 : Word) (s : State) : (placeWords s a w0 w1).halted = s.halted := rfl
@[simp] theorem placeWords_ram (a w0 w1 : Word) (s : State) : (placeWords s a w0 w1).ram = s.ram := rfl
@[simp] theorem placeWords_xm (a w0 w1 : Word) (s : State) : (placeWords s a w0 w1).xm = s.xm := rfl
@[simp] theorem placeWords_device (a w0 w1 : Word) (s : State) : (placeWords s a w0 w1).device = s.device := rfl
@[simp] theorem placeWords_env (a w0 w1 : Word) (s : State) : (placeWords s a w0 w1).env = s.env := rfl
@[simp] theorem placeWords_trace (a w0 w1 : Word) (s : State) : (placeWords s a w0 w1).trace = s.trace := rfl
@[simp] theorem placeWords_draws (a w0 w1 : Word) (s : State) : (placeWords s a w0 w1).draws = s.draws := rfl
@[simp] theorem placeWords_resets (a w0 w1 : Word) (s : State) : (placeWords s a w0 w1).resets = s.resets := rfl
@[simp] theorem placeWords_cycles (a w0 w1 : Word) (s : State) : (placeWords s a w0 w1).cycles = s.cycles := rfl

end Sys2Proof.Machine
end

