-- ==== Sys2Proof/Laws/Memory.lean ====
section
/-! SUPPORT. The laws of a memory as a list: reads after writes, and the canonical form. -/

namespace Sys2Proof.Machine

@[simp] theorem Memory.read_nil {w : Nat} (a : Nat) : Memory.read ([] : Mem w) a = none := rfl

/-- A read after a write to the same address gives the value written. -/
@[simp] theorem Memory.read_write_same {w : Nat} (m : Mem w) (a : Nat) (v : BitVec w) :
    Memory.read (Memory.write m a v) a = some v := by
  induction m with
  | nil => simp [Memory.write, Memory.read]
  | cons e m ih =>
    obtain ⟨k, u⟩ := e
    simp only [Memory.write]
    split
    · simp [Memory.read]
    · split
      · simp [Memory.read]
      · rename_i h
        simp [Memory.read, h, ih]

/-- A write leaves every other address alone. -/
theorem Memory.read_write_other {w : Nat} (m : Mem w) (a b : Nat) (v : BitVec w) (h : b ≠ a) :
    Memory.read (Memory.write m a v) b = Memory.read m b := by
  induction m with
  | nil => simp [Memory.write, Memory.read, h]
  | cons e m ih =>
    obtain ⟨k, u⟩ := e
    simp only [Memory.write]
    split
    · simp [Memory.read, h]
    · split
      · rename_i hk
        subst hk
        simp [Memory.read, h]
      · simp [Memory.read, ih]

/-- What a read after a write gives. -/
theorem Memory.read_write {w : Nat} (m : Mem w) (a b : Nat) (v : BitVec w) :
    Memory.read (Memory.write m a v) b = if b = a then some v else Memory.read m b := by
  split
  · next h => subst h; simp
  · next h => exact Memory.read_write_other m a b v h

theorem Memory.risesFrom_write {w : Nat} (m : Mem w) (lo a : Nat) (v : BitVec w) (hm : Memory.risesFrom lo m = true)
    (ha : lo ≤ a) : Memory.risesFrom lo (Memory.write m a v) = true := by
  induction m generalizing lo with
  | nil => simp [Memory.write, Memory.risesFrom, ha]
  | cons e m ih =>
    obtain ⟨k, u⟩ := e
    simp only [Memory.risesFrom, Bool.and_eq_true, decide_eq_true_eq] at hm
    simp only [Memory.write]
    split
    · rename_i hk
      simp only [Memory.risesFrom, Bool.and_eq_true, decide_eq_true_eq]
      exact ⟨ha, by omega, hm.2⟩
    · split
      · rename_i hk
        subst hk
        simp only [Memory.risesFrom, Bool.and_eq_true, decide_eq_true_eq]
        exact ⟨hm.1, hm.2⟩
      · simp only [Memory.risesFrom, Bool.and_eq_true, decide_eq_true_eq]
        exact ⟨hm.1, ih (k + 1) hm.2 (by omega)⟩

/-- A write keeps the canonical form. -/
theorem Memory.write_wf {w : Nat} (m : Mem w) (a : Nat) (v : BitVec w) (h : Memory.wf m = true) :
    Memory.wf (Memory.write m a v) = true :=
  Memory.risesFrom_write m 0 a v h (Nat.zero_le a)

/-- A write lists no address but the one written and those that were listed. -/
theorem Memory.write_all {w : Nat} (p : Nat → Bool) (m : Mem w) (a : Nat) (v : BitVec w)
    (h : (m.all fun e => p e.1) = true) (ha : p a = true) :
    ((Memory.write m a v).all fun e => p e.1) = true := by
  induction m with
  | nil => simp [Memory.write, ha]
  | cons e m ih =>
    obtain ⟨k, u⟩ := e
    simp only [List.all_cons, Bool.and_eq_true] at h
    simp only [Memory.write]
    split
    · simp [List.all_cons, ha, h.1]
      simpa using h.2
    · split
      · simp [List.all_cons, ha]
        simpa using h.2
      · simp only [List.all_cons, Bool.and_eq_true]
        exact ⟨h.1, ih h.2⟩

/-- A write inside a window keeps a memory in it. -/
theorem Memory.write_within {w : Nat} (lo hi : Nat) (m : Mem w) (a : Nat) (v : BitVec w)
    (h : Memory.within lo hi m = true) (h1 : lo ≤ a) (h2 : a < hi) :
    Memory.within lo hi (Memory.write m a v) = true :=
  Memory.write_all (fun n => decide (lo ≤ n ∧ n < hi)) m a v h (by simp [h1, h2])

/-! ## Every operation that writes a memory keeps the canonical form -/

theorem dmStore_wf (s : State) (a : DataAddr) (v : Nibble) (h : Memory.wf s.ram = true) :
    Memory.wf (dmStore s a v).ram = true := by
  unfold dmStore
  split
  · exact h
  · simpa using h
  · exact Memory.write_wf _ _ _ h

theorem dmLoadNibble_wf (s : State) (a : DataAddr) (v : Nibble) (h : Memory.wf s.ram = true) :
    Memory.wf (dmLoadNibble s a v).ram = true := by
  unfold dmLoadNibble
  split
  · exact dmStore_wf { s with draws := s.draws + 1 } a _ h
  · exact dmStore_wf s a v h

theorem xmStore_wf (s : State) (a : Word) (v : Byte) (h : Memory.wf s.xm = true) :
    Memory.wf (xmStore s a v).xm = true := by
  simp only [xmStore]
  split
  · exact Memory.write_wf _ _ _ h
  · exact h

theorem placeWords_wf (s : State) (a w0 w1 : Word) (h : Memory.wf s.pm = true) :
    Memory.wf (placeWords s a w0 w1).pm = true :=
  Memory.write_wf _ _ _ (Memory.write_wf _ _ _ h)

/-- The memories of the reset state have the canonical form. -/
theorem reset_memories_wf :
    Memory.wf State.reset.ram = true ∧ Memory.wf State.reset.pm = true ∧ Memory.wf State.reset.xm = true :=
  ⟨rfl, rfl, rfl⟩

end Sys2Proof.Machine
end

