-- ==== Sys2Proof/Laws/Ops.lean ====
section
/-! SUPPORT. What each shared operation can do, said once: data memory, pairs, the template of an instruction with a
data memory operand, the 8-bit transfers. -/

namespace Sys2Proof.Machine

/-! ## Numbers -/

/-- Two fields side by side, as a number. -/
theorem append_toNat {n m : Nat} (a : BitVec n) (b : BitVec m) : (a ++ b).toNat = a.toNat * 2 ^ m + b.toNat := by
  rw [BitVec.toNat_append, ← Nat.shiftLeft_add_eq_or_of_lt b.isLt, Nat.shiftLeft_eq]

/-- The number a pair holds (10_state.md R28). -/
theorem pairValue_toNat (p : Pair) (s : State) :
    (pairValue p s).toNat =
      match p with
      | .hl => 16 * s.h.toNat + s.l.toNat
      | .xy => 16 * s.x.toNat + s.y.toNat := by
  cases p
  · exact (append_toNat s.h s.l).trans (by simp only []; omega)
  · exact (append_toNat s.x s.y).trans (by simp only []; omega)

/-- The number RA holds (10_state.md R30). -/
theorem raValue_toNat (s : State) :
    (raValue s).toNat = 4096 * s.ra3.toNat + 256 * s.ra2.toNat + 16 * s.ra1.toNat + s.ra0.toNat := by
  simp only [raValue, append_toNat]
  omega

/-- The address of an indirect form as a number (20_memory.md R86). -/
theorem indAddr_toNat (m : Ind) (s : State) :
    (indAddr m s).toNat = 256 * (bankValue (indBank m) s).toNat + (pairValue (indPair m) s).toNat :=
  (append_toNat (bankValue (indBank m) s) (pairValue (indPair m) s)).trans (by omega)

/-- "Z says that the result is 0", on the nibble and on its number. -/
theorem decide_nibble_zero (r : Nibble) : decide (r = 0) = decide (r.toNat = 0) := by
  revert r
  decide

/-! ## Places -/

/-- Data RAM is 100H to 0FFFH (20_memory.md R78). -/
theorem locate_eq_ram (a : DataAddr) : locate a = .ram ↔ 0x100 ≤ a.toNat := by
  unfold locate
  split
  · rename_i h
    simp only [reduceCtorEq, false_iff]
    omega
  · split
    · rename_i h
      simp [h]
    · rename_i h1 h2
      simp only [h2, iff_false]
      split <;> simp

/-- Peripheral SFRs are 000H to 0F1H (20_memory.md R77). -/
theorem locate_eq_peripheral (a : DataAddr) : locate a = .peripheral ↔ a.toNat < 0xF2 := by
  unfold locate
  split
  · rename_i h
    simp [h]
  · rename_i h
    simp only [h, iff_false]
    split
    · simp
    · split <;> simp

/-- The data address of a core register (20_memory.md R75). -/
def CoreReg.addr : CoreReg → DataAddr
  | .ra0 => 0xF2
  | .ra1 => 0xF3
  | .ra2 => 0xF4
  | .ra3 => 0xF5
  | .rsp => 0xF6
  | .spl => 0xF7
  | .sph => 0xF8
  | .y => 0xF9
  | .x => 0xFA
  | .l => 0xFB
  | .h => 0xFC
  | .cbr => 0xFD
  | .ebr => 0xFE
  | .mief => 0xFF

@[simp] theorem locate_addr (r : CoreReg) : locate r.addr = .core r := by
  cases r <;> decide

/-- A core register lies at one address alone. -/
theorem locate_eq_core (a : DataAddr) (r : CoreReg) : locate a = .core r ↔ a = r.addr := by
  constructor
  · intro h
    have h1 : ¬ a.toNat < 0xF2 := fun hc => by
      rw [(locate_eq_peripheral a).2 hc] at h
      cases h
    have h2 : ¬ 0x100 ≤ a.toNat := fun hc => by
      rw [(locate_eq_ram a).2 hc] at h
      cases h
    have h3 : a.toNat = 0xF2 ∨ a.toNat = 0xF3 ∨ a.toNat = 0xF4 ∨ a.toNat = 0xF5 ∨ a.toNat = 0xF6 ∨ a.toNat = 0xF7 ∨
        a.toNat = 0xF8 ∨ a.toNat = 0xF9 ∨ a.toNat = 0xFA ∨ a.toNat = 0xFB ∨ a.toNat = 0xFC ∨ a.toNat = 0xFD ∨
        a.toNat = 0xFE ∨ a.toNat = 0xFF := by omega
    rcases h3 with e | e | e | e | e | e | e | e | e | e | e | e | e | e <;>
      (have ha := congrArg (BitVec.ofNat 12) e
       rw [BitVec.ofNat_toNat, BitVec.setWidth_eq] at ha
       subst ha
       revert h
       cases r <;> decide)
  · rintro rfl
    exact locate_addr r

/-- 0F9H to 0FEH are the pair and bank registers (20_memory.md R89). -/
theorem isPairOrBank_addr (r : CoreReg) :
    isPairOrBank r.addr = decide (r = .y ∨ r = .x ∨ r = .l ∨ r = .h ∨ r = .cbr ∨ r = .ebr) := by
  cases r <;> decide

/-- A register of a pair lies in the range closed to post-increment forms. -/
theorem isPairOrBank_of_inPair {p : Pair} {r : CoreReg} {a : DataAddr} (h : CoreReg.inPair p r = true)
    (ha : locate a = .core r) : isPairOrBank a = true := by
  rw [(locate_eq_core a r).1 ha, isPairOrBank_addr]
  cases p <;> cases r <;> simp_all [CoreReg.inPair]

/-! ## Reads and writes of data memory -/

@[simp] theorem ramValue_afterDmRead (s : State) (a b : DataAddr) : ramValue (afterDmRead s a) b = ramValue s b := by
  simp [ramValue]

@[simp] theorem coreRegValue_afterDmRead (r : CoreReg) (s : State) (a : DataAddr) :
    coreRegValue r (afterDmRead s a) = coreRegValue r s := by
  cases r <;> simp [coreRegValue]

theorem afterDmRead_trace (s : State) (a : DataAddr) :
    (afterDmRead s a).trace = if locate a = .peripheral then .sfrRead a :: s.trace else s.trace := by
  unfold afterDmRead
  split <;> simp_all

theorem afterDmRead_draws (s : State) (a : DataAddr) :
    (afterDmRead s a).draws = s.draws + if locate a = .peripheral then 1 else 0 := by
  unfold afterDmRead
  split <;> simp_all

/-- What data RAM holds after a write of data memory. -/
theorem ramValue_dmStore (s : State) (a b : DataAddr) (v : Nibble) :
    ramValue (dmStore s a v) b = if locate a = .ram ∧ b = a then v else ramValue s b := by
  have hb : (b.toNat = a.toNat) ↔ b = a := by
    rw [← BitVec.toNat_inj]
  unfold dmStore ramValue
  split
  · simp_all
  · simp_all
  · simp only [Memory.read_write]
    by_cases h : b = a
    · subst h
      simp_all
    · have : ¬ b.toNat = a.toNat := fun e => h (hb.1 e)
      simp [this, h]

/-- What a core register holds after a write of a core register. -/
theorem coreRegValue_setCoreReg (q r : CoreReg) (v : Nibble) (s : State) :
    coreRegValue r (setCoreReg q v s) = if q = r ∧ r.writable = true then v else coreRegValue r s := by
  cases q <;> cases r <;> rfl

/-- What a core register holds after a write of data memory. -/
theorem coreRegValue_dmStore (s : State) (a : DataAddr) (v : Nibble) (r : CoreReg) :
    coreRegValue r (dmStore s a v) = if locate a = .core r ∧ r.writable = true then v else coreRegValue r s := by
  unfold dmStore
  split
  · rename_i h
    simp only [h, reduceCtorEq, false_and, if_false]
    cases r <;> rfl
  · rename_i q h
    simp [h, coreRegValue_setCoreReg]
  · rename_i h
    simp only [h, reduceCtorEq, false_and, if_false]
    cases r <;> rfl

theorem dmStore_trace (s : State) (a : DataAddr) (v : Nibble) :
    (dmStore s a v).trace = if locate a = .peripheral then .sfrWrite a v :: s.trace else s.trace := by
  unfold dmStore
  split <;> simp_all

/-! ## Pairs -/

theorem append_extract (t : Byte) : t.extractLsb' 4 4 ++ t.extractLsb' 0 4 = t := by
  revert t
  decide

@[simp] theorem pairValue_setPair (p : Pair) (t : Byte) (s : State) : pairValue p (setPair p t s) = t := by
  cases p <;> exact append_extract t

theorem pairValue_postInc (p : Pair) (k : Nat) (s : State) :
    pairValue p (postInc p k s) = pairValue p s + BitVec.ofNat 8 k := by
  have h : pairValue p (postInc p k s) = BitVec.ofNat 8 ((pairValue p s).toNat + k) := by
    cases p <;> exact append_extract _
  rw [h, BitVec.ofNat_add, BitVec.ofNat_toNat, BitVec.setWidth_eq]

theorem coreRegValue_postInc (p : Pair) (k : Nat) (s : State) (r : CoreReg) (h : CoreReg.inPair p r = false) :
    coreRegValue r (postInc p k s) = coreRegValue r s := by
  cases p <;> cases r <;> simp_all [CoreReg.inPair] <;> rfl

@[simp] theorem ramValue_postInc (p : Pair) (k : Nat) (s : State) (a : DataAddr) :
    ramValue (postInc p k s) a = ramValue s a := by
  simp [ramValue]

@[simp] theorem ramValue_advance (n : Nat) (s : State) (a : DataAddr) : ramValue (advance n s) a = ramValue s a := rfl

@[simp] theorem coreRegValue_advance (n : Nat) (s : State) (r : CoreReg) :
    coreRegValue r (advance n s) = coreRegValue r s := by
  cases r <;> rfl

@[simp] theorem pairValue_advance (n : Nat) (s : State) (p : Pair) : pairValue p (advance n s) = pairValue p s := by
  cases p <;> rfl

@[simp] theorem ramValue_objClose (o : Obj) (s : State) (a : DataAddr) :
    ramValue (objClose o s) a = ramValue s a := by
  simp [ramValue]

@[simp] theorem ramValue_indClose (m : Ind) (k : Nat) (s : State) (a : DataAddr) :
    ramValue (indClose m k s) a = ramValue s a := by
  simp [ramValue]

theorem coreRegValue_objClose (o : Obj) (s : State) (r : CoreReg)
    (h : ∀ p, postPair o = some p → CoreReg.inPair p r = false) :
    coreRegValue r (objClose o s) = coreRegValue r s := by
  cases o with
  | ind m =>
    simp only [objClose, indClose]
    split
    · rename_i hp
      exact coreRegValue_postInc _ _ _ _ (h _ (by simp [postPair, hp]))
    · rfl
  | _ => rfl

theorem coreRegValue_indClose (m : Ind) (k : Nat) (s : State) (r : CoreReg)
    (h : ∀ p, postPair2 m = some p → CoreReg.inPair p r = false) :
    coreRegValue r (indClose m k s) = coreRegValue r s := by
  simp only [indClose]
  split
  · rename_i hp
    exact coreRegValue_postInc _ _ _ _ (h _ (by simp [postPair2, hp]))
  · rfl

/-- Two states with equal pair registers have equal pairs. -/
theorem pairValue_congr {s t : State} (p : Pair)
    (h : ∀ r, CoreReg.inPair p r = true → coreRegValue r t = coreRegValue r s) : pairValue p t = pairValue p s := by
  cases p
  · have h1 : t.h = s.h := h .h (by decide)
    have h2 : t.l = s.l := h .l (by decide)
    simp [pairValue, h1, h2]
  · have h1 : t.x = s.x := h .x (by decide)
    have h2 : t.y = s.y := h .y (by decide)
    simp [pairValue, h1, h2]

/-! ## The template of an instruction with a data memory operand -/

theorem postPair_isSome (o : Obj) (p : Pair) (h : postPair o = some p) :
    objPost o = true ∧ ∀ s, objClose o s = postInc p 1 s := by
  cases o with
  | ind m =>
    simp only [postPair] at h
    split at h
    · rename_i hp
      cases h
      exact ⟨hp, fun s => by simp [objClose, indClose, hp]⟩
    · cases h
  | _ => cases h

theorem postPair_isNone (o : Obj) (h : postPair o = none) (s : State) : objClose o s = s := by
  cases o with
  | ind m =>
    simp only [postPair] at h
    split at h
    · cases h
    · rename_i hp
      simp [objClose, indClose, hp]
  | _ => rfl

/-- `withObj` gives the next state of a ready instruction. -/
theorem withObj_ready {o : Obj} {s : State} (h : Ready o s) (k : DataAddr → State) :
    withObj o s k = .next (k (objAddr o s)) := by
  obtain ⟨h1, h2⟩ := h
  unfold withObj
  have h3 : (objPost o && isPairOrBank (objAddr o s)) = false := by
    cases hp : objPost o
    · rfl
    · simp [h1 hp]
  simp [h3, h2]

/-- If an instruction of the template answers a next state, it was ready. -/
theorem ready_of_withObj {o : Obj} {s t : State} {k : DataAddr → State} (h : withObj o s k = .next t) :
    Ready o s ∧ t = k (objAddr o s) := by
  unfold withObj at h
  simp only at h
  split at h
  · cases h
  · rename_i h1
    split at h
    · rename_i h2
      cases h
      refine ⟨⟨fun hp => ?_, h2⟩, rfl⟩
      simpa [hp] using h1
    · cases h

/-- The state before the close, in its parts. -/
@[simp] theorem applyOut_a (ea : DataAddr) (o : AluOut) (s : State) : (applyOut ea o s).a = o.a := rfl
@[simp] theorem applyOut_z (ea : DataAddr) (o : AluOut) (s : State) : (applyOut ea o s).z = o.z := rfl
@[simp] theorem applyOut_c (ea : DataAddr) (o : AluOut) (s : State) : (applyOut ea o s).c = o.c := rfl

theorem applyOut_trace (ea : DataAddr) (o : AluOut) (s : State) :
    (applyOut ea o s).trace = (if locate ea = .peripheral then storeEvents ea o.store else []) ++ s.trace := by
  obtain ⟨st, oa, oz, oc⟩ := o
  cases st with
  | none =>
    have e : (applyOut ea ⟨none, oa, oz, oc⟩ s).trace = s.trace := rfl
    simp [e, storeEvents]
  | some v =>
    have e : (applyOut ea ⟨some v, oa, oz, oc⟩ s).trace = (dmStore s ea v).trace := rfl
    rw [e, dmStore_trace]
    split <;> simp [storeEvents]

/-- What a core register holds before the close. -/
theorem coreRegValue_applyOut (ea : DataAddr) (o : AluOut) (s : State) (r : CoreReg) :
    coreRegValue r (applyOut ea o s) =
      if locate ea = .core r ∧ r.writable = true then o.store.getD (coreRegValue r s) else coreRegValue r s := by
  obtain ⟨st, oa, oz, oc⟩ := o
  cases st with
  | none =>
    have e : coreRegValue r (applyOut ea ⟨none, oa, oz, oc⟩ s) = coreRegValue r s := by cases r <;> rfl
    simp [e]
  | some v =>
    have e : coreRegValue r (applyOut ea ⟨some v, oa, oz, oc⟩ s) = coreRegValue r (dmStore s ea v) := by
      cases r <;> rfl
    rw [e, coreRegValue_dmStore]
    rfl

/-- What data RAM holds before the close. -/
theorem ramValue_applyOut (ea : DataAddr) (o : AluOut) (s : State) (a : DataAddr) (ha : locate a = .ram) :
    ramValue (applyOut ea o s) a = if a = ea then o.store.getD (ramValue s a) else ramValue s a := by
  obtain ⟨st, oa, oz, oc⟩ := o
  cases st with
  | none =>
    have e : ramValue (applyOut ea ⟨none, oa, oz, oc⟩ s) a = ramValue s a := rfl
    simp [e]
  | some v =>
    have e : ramValue (applyOut ea ⟨some v, oa, oz, oc⟩ s) a = ramValue (dmStore s ea v) a := rfl
    rw [e, ramValue_dmStore]
    by_cases h : a = ea
    · subst h
      simp [ha]
    · simp [h]

/-- Everything an instruction of the template does besides A, Z and C. -/
theorem dataEffect_apply (o : Obj) (out : AluOut) (s u : State) (reads : Bool) (hr : Ready o s)
    (hu : u = if reads then afterDmRead s (objAddr o s) else s) :
    DataEffect o reads out.store s (advance 1 (objClose o (applyOut (objAddr o s) out u))) := by
  obtain ⟨st, oa, oz, oc⟩ := out
  have hpair : ∀ p, postPair o = some p →
      pairValue p (applyOut (objAddr o s) ⟨st, oa, oz, oc⟩ u) = pairValue p s := by
    intro p hp
    refine pairValue_congr p fun r hr' => ?_
    have hb := hr.1 (postPair_isSome o p hp).1
    have hne : ¬ locate (objAddr o s) = .core r := fun hc => by
      rw [isPairOrBank_of_inPair hr' hc] at hb
      cases hb
    rw [coreRegValue_applyOut, hu]
    cases reads <;> simp [hne]
  refine ⟨?_, ⟨⟨?_, ?_, ?_, ?_, ?_, ?_⟩, ⟨?_, ?_⟩, ?_, ?_, ?_⟩, ?_, ?_, ?_, ?_, ?_, ?_, ?_⟩
  case refine_13 =>
    intro a ha
    rw [ramValue_advance, ramValue_objClose, ramValue_applyOut _ _ _ _ ha, hu]
    cases reads <;> simp
  case refine_14 =>
    intro r h
    rw [coreRegValue_advance, coreRegValue_objClose o _ r h, coreRegValue_applyOut, hu]
    cases reads <;> simp
  case refine_15 =>
    intro p hp
    rw [(postPair_isSome o p hp).2]
    refine ⟨?_, ?_⟩
    · rw [pairValue_advance, pairValue_postInc, hpair p hp]
      rfl
    · simp only [advance_g, postInc_g, hpair p hp]
      have := (pairValue p s).isLt
      rw [decide_eq_decide, ← BitVec.toNat_inj]
      simp
      omega
  case refine_16 =>
    intro hn
    rw [postPair_isNone o hn, hu]
    cases st <;> cases reads <;> simp [applyOut]
  case refine_18 =>
    rw [advance_trace, objClose_trace, hu]
    cases st <;> cases reads <;> 
      simp [applyOut, dmStore_trace, afterDmRead_trace, storeEvents]
    all_goals split <;> simp_all
  case refine_19 =>
    rw [advance_draws, objClose_draws, hu]
    cases st <;> cases reads <;> simp [applyOut, afterDmRead_draws]
  all_goals
    rw [hu]
    cases st <;> cases reads <;> simp [applyOut]

/-- What an instruction that reads its location does (40_transfer.md R205). -/
theorem onRead_spec (o : Obj) (f : AluIn → AluOut) (s : State) (hr : Ready o s) :
    ∃ t, onRead o f s = .next t ∧
      (let out := f { v := dmValue s (objAddr o s), a := s.a, z := s.z, c := s.c }
       t.a = out.a ∧ t.z = out.z ∧ t.c = out.c ∧ DataEffect o true out.store s t) := by
  refine ⟨_, withObj_ready hr _, ?_, ?_, ?_, dataEffect_apply o _ s _ true hr rfl⟩ <;>
    simp [applyOut_a, applyOut_z, applyOut_c]

/-- What an instruction that only writes its location does (40_transfer.md R205). -/
theorem onStore_spec (o : Obj) (f : AluIn → AluOut) (s : State) (hr : Ready o s) :
    ∃ t, onStore o f s = .next t ∧
      (let out := f { v := 0, a := s.a, z := s.z, c := s.c }
       t.a = out.a ∧ t.z = out.z ∧ t.c = out.c ∧ DataEffect o false out.store s t) := by
  refine ⟨_, withObj_ready hr _, ?_, ?_, ?_, dataEffect_apply o _ s _ false hr rfl⟩ <;>
    simp [applyOut_a, applyOut_z, applyOut_c]

end Sys2Proof.Machine
end

