-- ==== Sys2Proof/Laws/Bytes.lean ====
section
/-! SUPPORT. What the template of an 8-bit transfer can do, said once (45_rom_ext_transfer.md R378). -/

namespace Sys2Proof.Machine

/-- The registers an 8-bit load leaves undefined, by their addresses (20_memory.md R90). -/
theorem isUndefinedDestination_addr (r : CoreReg) :
    isUndefinedDestination r.addr = !decide (r = .rsp ∨ r = .spl ∨ r = .sph ∨ r = .mief) := by
  cases r <;> decide

/-- No data RAM address is a register of 20_memory.md R90. -/
theorem isUndefinedDestination_ram {a : DataAddr} (h : locate a = .ram) : isUndefinedDestination a = false := by
  have h1 := (locate_eq_ram a).1 h
  simp only [isUndefinedDestination, isPairOrBank, Bool.or_eq_false_iff, decide_eq_false_iff_not]
  omega

/-- No peripheral SFR is a register of 20_memory.md R90. -/
theorem isUndefinedDestination_peripheral {a : DataAddr} (h : locate a = .peripheral) :
    isUndefinedDestination a = false := by
  have h1 := (locate_eq_peripheral a).1 h
  simp only [isUndefinedDestination, isPairOrBank, Bool.or_eq_false_iff, decide_eq_false_iff_not]
  omega

/-- What data RAM holds after one nibble of an 8-bit load. -/
theorem ramValue_dmLoadNibble (s : State) (a b : DataAddr) (v : Nibble) (hb : locate b = .ram) :
    ramValue (dmLoadNibble s a v) b = if b = a then v else ramValue s b := by
  unfold dmLoadNibble
  split
  · rename_i h
    have hne : b ≠ a := by
      rintro rfl
      rw [isUndefinedDestination_ram hb] at h
      cases h
    simp only [ramValue_dmStore, hne, and_false, if_false]
    rfl
  · rw [ramValue_dmStore]
    by_cases h : b = a
    · subst h
      simp [hb]
    · simp [h]

/-- A core register that is not addressed keeps its value in an 8-bit load. -/
theorem coreRegValue_dmLoadNibble (s : State) (a : DataAddr) (v : Nibble) (r : CoreReg) (h : locate a ≠ .core r) :
    coreRegValue r (dmLoadNibble s a v) = coreRegValue r s := by
  unfold dmLoadNibble
  split
  · simp only [coreRegValue_dmStore, h, false_and, if_false]
    cases r <;> rfl
  · simp [coreRegValue_dmStore, h]

/-- RSP is written by an 8-bit load that addresses it. -/
theorem rsp_dmLoadNibble (s : State) (a : DataAddr) (v : Nibble) :
    (dmLoadNibble s a v).rsp = if locate a = .core .rsp then v else s.rsp := by
  by_cases h : locate a = .core .rsp
  · have hu : isUndefinedDestination a = false := by
      rw [(locate_eq_core a .rsp).1 h]
      decide
    have := coreRegValue_dmStore s a v .rsp
    simp only [coreRegValue, h, CoreReg.writable, and_self, if_true] at this
    simp [dmLoadNibble, hu, h, this]
  · have := coreRegValue_dmLoadNibble s a v .rsp h
    simpa [coreRegValue, h] using this

theorem dmLoadNibble_trace (s : State) (a : DataAddr) (v : Nibble) :
    (dmLoadNibble s a v).trace = loadEvents a v ++ s.trace := by
  unfold dmLoadNibble loadEvents
  split
  · rename_i h
    have hne : locate a ≠ .peripheral := fun hc => by
      rw [isUndefinedDestination_peripheral hc] at h
      cases h
    simp [dmStore_trace, hne]
  · simp only [dmStore_trace]
    split <;> simp

theorem postPair2_some {m : Ind} {p : Pair} (h : postPair2 m = some p) : indPost m = true ∧ p = indPair m := by
  simp only [postPair2] at h
  split at h
  · rename_i hp
    cases h
    exact ⟨hp, rfl⟩
  · cases h

/-- The close of an 8-bit transfer. -/
theorem post2_indClose {m : Ind} {n : Nat} {s u : State} (hg : u.g = s.g)
    (hp : indPost m = true → pairValue (indPair m) u = pairValue (indPair m) s) :
    Post2 m s (advance n (indClose m 2 u)) := by
  constructor
  · intro p h
    obtain ⟨h1, rfl⟩ := postPair2_some h
    have hc : indClose m 2 u = postInc (indPair m) 2 u := by simp [indClose, h1]
    rw [hc]
    refine ⟨?_, ?_⟩
    · rw [pairValue_advance, pairValue_postInc, hp h1]
      rfl
    · simp only [advance_g, postInc_g, hp h1]
      rw [decide_eq_decide]
      omega
  · intro h
    have h1 : ¬ indPost m = true := fun hc => by simp [postPair2, hc] at h
    simp [indClose, h1, hg]

/-- What a load form does: `t` is the state after the source was read, which differs from `s` in what devices saw
and in the draws alone. -/
theorem loadByte_spec (m : Ind) (n : Nat) (b : Byte) (s : State) (seen : List BusEvent) (d : Nat)
    (hr : ReadyByte m s) :
    ∃ t, loadByte m n s b { s with draws := d, trace := seen ++ s.trace } = .next t ∧ LoadEffect m n b seen s t := by
  obtain ⟨h1, h2, h3⟩ := hr
  refine ⟨advance n (indClose m 2 (dmLoadNibble (dmLoadNibble { s with draws := d, trace := seen ++ s.trace }
    (indAddr m s) (b.extractLsb' 0 4)) (indAddr1 m s) (b.extractLsb' 4 4))), ?_, ?_⟩
  · simp [loadByte, h2, h3]
  · generalize hs0 : ({ s with draws := d, trace := seen ++ s.trace } : State) = s0
    generalize hu : dmLoadNibble (dmLoadNibble s0 (indAddr m s) (b.extractLsb' 0 4)) (indAddr1 m s)
      (b.extractLsb' 4 4) = u
    have hregs : ∀ r, locate (indAddr m s) ≠ .core r → locate (indAddr1 m s) ≠ .core r →
        coreRegValue r u = coreRegValue r s := by
      intro r ha hb
      rw [← hu, coreRegValue_dmLoadNibble _ _ _ _ hb, coreRegValue_dmLoadNibble _ _ _ _ ha, ← hs0]
      cases r <;> rfl
    have hpair : indPost m = true → pairValue (indPair m) u = pairValue (indPair m) s := by
      intro hp
      obtain ⟨e1, e2⟩ := h1 hp
      refine pairValue_congr _ fun r hr => hregs r ?_ ?_
      · intro hc
        rw [isPairOrBank_of_inPair hr hc] at e1
        cases e1
      · intro hc
        rw [isPairOrBank_of_inPair hr hc] at e2
        cases e2
    refine ⟨?_, ⟨⟨?_, ?_, ?_, ?_, ?_, ?_⟩, ⟨?_, ?_⟩, ?_, ?_, ?_⟩, ?_, ?_, ?_, ?_, ?_, ?_, ?_, ?_, ?_⟩
    case refine_17 =>
      intro a ha
      rw [ramValue_advance, ramValue_indClose, ← hu, ramValue_dmLoadNibble _ _ _ _ ha,
        ramValue_dmLoadNibble _ _ _ _ ha, ← hs0]
      rfl
    case refine_18 =>
      rw [advance_rsp, indClose_rsp, ← hu, rsp_dmLoadNibble, rsp_dmLoadNibble, ← hs0]
    case refine_19 =>
      intro r h ha hb
      rw [coreRegValue_advance, coreRegValue_indClose m 2 u r h, hregs r ha hb]
    case refine_20 =>
      rw [advance_trace, indClose_trace, ← hu, dmLoadNibble_trace, dmLoadNibble_trace, ← hs0]
      simp
    case refine_21 =>
      refine post2_indClose ?_ hpair
      rw [← hu, ← hs0]
      simp
    all_goals
      rw [← hu, ← hs0]
      simp

theorem byteHazard_of_ready {m : Ind} {s : State} (h : ReadyByte m s) : byteHazard m s = false := by
  unfold byteHazard
  cases hp : indPost m
  · rfl
  · simp [h.1 hp]

/-- What MOVHB and MOVLB do (R370 to R373). -/
theorem runRom_spec (h : Half) (m : Ind) (f : FarAddr) (w : Word) (s : State) (hr : ReadyByte m s)
    (hw : pmRead s (farAddr f s) = some w) :
    ∃ t, runRom h m f s = .next t ∧ LoadEffect m f.words (romByte h w) [] s t := by
  have := loadByte_spec m f.words (romByte h w) s [] s.draws hr
  simpa [runRom, byteHazard_of_ready hr, hw] using this

/-- What MOVXB to data memory does (R374, R375). -/
theorem runXmLoad_spec (m : Ind) (f : FarAddr) (s : State) (hr : ReadyByte m s) :
    ∃ t, runXmLoad m f s = .next t ∧
      LoadEffect m f.words (xmValue s (farAddr f s)) [.xmRead (farAddr f s)] s t := by
  have := loadByte_spec m f.words (xmValue s (farAddr f s)) s [.xmRead (farAddr f s)]
    (s.draws + (if xmIsStorage s (farAddr f s) then 0 else 1)) hr
  simpa [runXmLoad, byteHazard_of_ready hr, afterXmRead] using this

/-- What MOVXB to external memory does (R376, R377). -/
theorem runXmStore_spec (m : Ind) (f : FarAddr) (s : State) (hr : ReadyByte m s) :
    ∃ t, runXmStore f m s = .next t ∧ StoreEffect m f.words (farAddr f s) s t := by
  have hz := byteHazard_of_ready hr
  obtain ⟨h1, h2, h3⟩ := hr
  refine ⟨advance f.words (indClose m 2 (xmStore (afterDmRead (afterDmRead s (indAddr m s)) (indAddr1 m s))
    (farAddr f s) (storedByte m s))), ?_, ?_⟩
  · simp [runXmStore, hz, h2, h3, storedByte]
  · generalize hu : afterDmRead (afterDmRead s (indAddr m s)) (indAddr1 m s) = u
    have hxs : xmIsStorage u (farAddr f s) = xmIsStorage s (farAddr f s) := by
      rw [← hu]
      simp [xmIsStorage]
    have hregs : ∀ r, coreRegValue r (xmStore u (farAddr f s) (storedByte m s)) = coreRegValue r s := by
      intro r
      rw [← hu]
      have : coreRegValue r (xmStore (afterDmRead (afterDmRead s (indAddr m s)) (indAddr1 m s)) (farAddr f s)
          (storedByte m s)) = coreRegValue r (afterDmRead (afterDmRead s (indAddr m s)) (indAddr1 m s)) := by
        cases r <;> rfl
      simp [this]
    refine ⟨?_, ⟨⟨?_, ?_, ?_, ?_, ?_, ?_⟩, ⟨?_, ?_⟩, ?_, ?_, ?_⟩, ?_, ?_, ?_, ?_, ?_, ?_, ?_, ?_⟩
    case refine_16 =>
      intro a
      rw [ramValue_advance, ramValue_indClose, ← hu]
      have : ramValue (xmStore (afterDmRead (afterDmRead s (indAddr m s)) (indAddr1 m s)) (farAddr f s)
          (storedByte m s)) a = ramValue (afterDmRead (afterDmRead s (indAddr m s)) (indAddr1 m s)) a := rfl
      simpa using this
    case refine_17 =>
      intro r h
      rw [coreRegValue_advance, coreRegValue_indClose m 2 _ r h]
      exact hregs r
    case refine_18 =>
      intro k
      rw [advance_xm, indClose_xm]
      simp only [xmStore, hxs]
      by_cases hx : xmIsStorage s (farAddr f s) = true
      · simp only [hx, if_true, Memory.read_write, true_and, ← hu, afterDmRead_xm]
      · simp [hx, ← hu]
    case refine_19 =>
      rw [advance_trace, indClose_trace, xmStore_trace, ← hu, afterDmRead_trace, afterDmRead_trace]
      unfold readEvents
      split <;> split <;> simp [storedByte]
    case refine_20 =>
      refine post2_indClose ?_ fun _ => pairValue_congr _ fun r _ => hregs r
      rw [← hu]
      simp
    all_goals
      rw [← hu]
      simp

end Sys2Proof.Machine
end

