-- ==== Sys2Proof/Laws/Control.lean ====
section
/-! SUPPORT. The stacks, the flag nibble, the fetch and the step, said once. -/

namespace Sys2Proof.Machine

/-! ## The stacks -/

/-- What a call stack slot holds after a save. -/
theorem callSlot_callPush (w : Word) (s : State) (k : BitVec 5) :
    callSlot (callPush w s) k = if k = s.sp then w else callSlot s k := by
  by_cases h : k = s.sp
  · subst h
    simp [callSlot, callPush]
  · have hne : s.sp.toNat ≠ k.toNat := fun e => h (BitVec.eq_of_toNat_eq e.symm)
    simp [callSlot, callPush, h, hne]

/-- What a register stack slot holds after a save. -/
theorem regSlot_regPush (w : Word) (s : State) (k : Nibble) :
    regSlot (regPush w s) k = if k = s.rsp then w else regSlot s k := by
  by_cases h : k = s.rsp
  · subst h
    simp [regSlot, regPush]
  · have hne : s.rsp.toNat ≠ k.toNat := fun e => h (BitVec.eq_of_toNat_eq e.symm)
    simp [regSlot, regPush, h, hne]

/-- The one property the spec gives FLAGPACK and FLAGUNPACK (10_state.md R36). -/
@[simp] theorem flagUnpack_flagPack (z c g : Bool) : flagUnpack (flagPack z c g) = (z, c, g) := by
  unfold flagUnpack flagPack
  rw [Equiv.symm_apply_apply]
  cases z <;> cases c <;> cases g <;> rfl

/-! ## Branch targets -/

/-- The target of JMP and CAL keeps the page (20_memory.md R94). -/
theorem pageAddr_toNat (s : State) (a : BitVec 12) :
    (pageAddr s a).toNat = s.pc.toNat / 4096 * 4096 + a.toNat := by
  refine (append_toNat (s.pc.extractLsb' 12 4) a).trans ?_
  have := s.pc.isLt
  simp only [BitVec.extractLsb'_toNat, Nat.shiftRight_eq_div_pow]
  omega

theorem signExtend_byte (d : Byte) : ((d.signExtend 16).toNat : Int) % 65536 = d.toInt % 65536 := by
  revert d
  decide

/-- A relative target counts from the address after the instruction (20_memory.md R96). -/
theorem relTarget_toNat (s : State) (d : Byte) :
    ((relTarget s d).toNat : Int) = (s.pc.toNat + 1 + d.toInt) % 65536 := by
  have h := signExtend_byte d
  simp only [relTarget, BitVec.toNat_add]
  push_cast
  simp
  omega

/-! ## The meaning of a decoded instruction -/

/-- The meaning of what the fetch gives is `exec` of the instruction. -/
theorem execOf_eq_exec (v : View) (s : State) : execOf v s = exec v.toInstr s := rfl

/-! ## Fetch and step -/

/-- The fetch depends on `pc` and program memory alone (20_memory.md R106). -/
theorem fetch_congr {s t : State} (h1 : s.pc = t.pc) (h2 : s.pm = t.pm) : fetch s = fetch t := by
  simp [fetch, pmRead, h1, h2]

/-- The fetch and the decoder read the same instruction. -/
theorem fetch_of_decode {s : State} {w a : Word} {i : Instr} (hw : pmRead s s.pc = some w)
    (h : decode [w] = .ok i [] ∨ (pmRead s (s.pc + 1) = some a ∧ decode [w, a] = .ok i [])) :
    ∃ v, fetch s = .found v ∧ v.toInstr = i := by
  rcases h with h | ⟨ha, h⟩
  · simp only [decode] at h
    simp only [fetch, hw]
    split at h
    · cases h
    · cases h
      exact ⟨_, by simp_all, rfl⟩
    · cases h
  · simp only [decode] at h
    simp only [fetch, hw, ha]
    split at h
    · cases h
    · cases h
    · cases h
      exact ⟨_, by simp_all, rfl⟩

@[simp] theorem countCycles_next (n : Nat) (t : State) :
    countCycles n (.next t) = .next { t with cycles := t.cycles + n } := rfl

/-- A next state with its cycles counted comes from a next state. -/
theorem countCycles_eq_next {n : Nat} {e : Exec} {t : State} (h : countCycles n e = .next t) :
    ∃ u, e = .next u ∧ t = { u with cycles := u.cycles + n } := by
  cases e with
  | next u => exact ⟨u, rfl, by cases h; rfl⟩
  | fault f => cases h
  | refused r => cases h

/-- What `execute` can do: it runs the instruction the fetch gives. -/
theorem execute_eq_next {s t : State} (h : execute s = .next t) :
    ∃ v u, fetch s = .found v ∧ exec v.toInstr s = .next u ∧ t = { u with cycles := u.cycles + v.cycles } := by
  unfold execute at h
  split at h
  · cases h
  · cases h
  · rename_i v hv
    obtain ⟨u, hu, ht⟩ := countCycles_eq_next h
    exact ⟨v, u, hv, hu, ht⟩

/-- What one boundary can do. -/
theorem stepUnder_cases {e : Stimulus} {s t : State} (h : stepUnder e s = .next t) :
    (e.reset = true ∧ t = systemReset s) ∨
    (e.reset = false ∧ (wakeUp e s).halted = true ∧ t = wakeUp e s) ∨
    (e.reset = false ∧ (wakeUp e s).halted = false ∧
      ((∃ v, e.nmi = some v ∧ t = acceptNmi v (wakeUp e s)) ∨
       (∃ v, e.nmi = none ∧ e.irq = some v ∧ (wakeUp e s).mie = true ∧ t = acceptIrq v (wakeUp e s)) ∨
       (e.nmi = none ∧ (e.irq = none ∨ (wakeUp e s).mie = false) ∧ execute (wakeUp e s) = .next t))) := by
  unfold stepUnder at h
  split at h
  · rename_i hr
    cases h
    exact .inl ⟨hr, rfl⟩
  · rename_i hr
    have hr' : e.reset = false := by simpa using hr
    simp only at h
    split at h
    · rename_i hh
      cases h
      exact .inr (.inl ⟨hr', hh, rfl⟩)
    · rename_i hh
      have hh' : (wakeUp e s).halted = false := by simpa using hh
      refine .inr (.inr ⟨hr', hh', ?_⟩)
      unfold boundary at h
      split at h
      · rename_i v hv
        cases h
        exact .inl ⟨v, hv, rfl⟩
      · rename_i hv
        split at h
        · rename_i v hi
          split at h
          · rename_i hm
            cases h
            exact .inr (.inl ⟨v, hv, hi, hm, rfl⟩)
          · rename_i hm
            exact .inr (.inr ⟨hv, .inr (by simpa using hm), h⟩)
        · rename_i hi
          exact .inr (.inr ⟨hv, .inl hi, h⟩)

/-- A step under an empty schedule, and under one that is not empty. -/
theorem step_nil {s : State} (h : s.env = []) : step s = stepUnder .quiet s := by
  unfold step
  rw [h]

theorem step_cons {s : State} {e : Stimulus} {rest : List Stimulus} (h : s.env = e :: rest) :
    step s = stepUnder e { s with env := rest } := by
  unfold step
  rw [h]

end Sys2Proof.Machine
end

