-- ==== Sys2Proof/Laws/Encoding.lean ====
section
/-! SUPPORT. The fields the decoder reads from a word that the encoder wrote, format by format. -/

namespace Sys2Proof

open Sys2Proof.Machine

/-- `View.toInstr` is a left inverse of `Instr.view`. -/
theorem toInstr_view (i : Instr) : i.view.toInstr = i := by
  cases i <;> rfl

/-- A field of a word as a number. -/
theorem extract_toNat {n : Nat} (w : BitVec n) (lo len : Nat) :
    (w.extractLsb' lo len).toNat = w.toNat / 2 ^ lo % 2 ^ len := by
  rw [BitVec.extractLsb'_toNat, Nat.shiftRight_eq_div_pow]

/-- F-SFR, F-CUR, F-CURI as a number (30_encoding.md R123, R130). -/
theorem wordOffset_toNat (t o : Nibble) (r : Byte) :
    (wordOffset t o r).toNat = 4096 * t.toNat + 256 * o.toNat + r.toNat := by
  have h : (wordOffset t o r).toNat = ((t ++ o).toNat) * 2 ^ 8 + r.toNat := append_toNat (t ++ o) r
  have h2 : (t ++ o).toNat = t.toNat * 2 ^ 4 + o.toNat := append_toNat t o
  omega

/-- The fields of F-SFR, F-CUR and F-CURI. -/
theorem wordOffset_fields (t o : Nibble) (r : Byte) :
    (wordOffset t o r).extractLsb' 12 4 = t ∧ (wordOffset t o r).extractLsb' 8 4 = o ∧
      (wordOffset t o r).extractLsb' 0 8 = r := by
  have h1 := t.isLt
  have h2 := o.isLt
  have h3 := r.isLt
  refine ⟨?_, ?_, ?_⟩ <;> apply BitVec.eq_of_toNat_eq <;> rw [extract_toNat, wordOffset_toNat] <;> omega

/-- The fields of F-DIR and F-A12 (30_encoding.md R126, R128). -/
theorem word12_fields (t : Nibble) (a : BitVec 12) :
    (word12 t a).extractLsb' 12 4 = t ∧ (word12 t a).extractLsb' 0 12 = a := by
  have h : (word12 t a).toNat = t.toNat * 2 ^ 12 + a.toNat := append_toNat t a
  have h1 := t.isLt
  have h2 := a.isLt
  refine ⟨?_, ?_⟩ <;> apply BitVec.eq_of_toNat_eq <;> rw [extract_toNat, h] <;> omega

/-- The fields of F-REL; the displacement is put together from its two parts (30_encoding.md R129). -/
theorem wordRel_fields (cc : BitVec 2) (t : Bool) (d : Byte) :
    (wordRel cc t d).extractLsb' 12 4 = 0 ∧ (wordRel cc t d).getLsbD 11 = true ∧
      (wordRel cc t d).extractLsb' 9 2 = cc ∧ (wordRel cc t d).getLsbD 7 = t ∧
      (wordRel cc t d).extractLsb' 8 1 ++ (wordRel cc t d).extractLsb' 0 7 = d := by
  revert cc t d
  decide

end Sys2Proof
end

