-- ==== Sys2Proof/Laws/Families.lean ====
section
/-! SUPPORT. What each shape of instruction can do, said once: those on one nibble of data memory, the 8-bit transfers,
and the others. -/

namespace Sys2Proof.Machine

/-! ## The shapes -/

/-- An instruction has an operand in data memory, or is an 8-bit transfer, or neither. -/
theorem view_shape (v : View) :
    (∃ o, v.operand = some o) ∨ (∃ m, v.byteOperand = some m) ∨ (v.operand = none ∧ v.byteOperand = none) := by
  cases h : v.operand <;> cases h2 : v.byteOperand <;> simp

/-- The meaning of an instruction by its operation and operand form. -/
theorem exec_of_view {i : Instr} {v : View} (h : i.view = v) (s : State) : exec i s = execView v s := by
  rw [exec_eq_execView, h]

/-! ## Instructions on one nibble -/

/-- An instruction on one nibble follows the template of 40_transfer.md R205 with the operation `f`, and `f` keeps what
the instruction does not write. -/
structure Template (v : View) (o : Obj) (s : State) (reads : Bool) (f : AluIn → AluOut) : Prop where
  eq : (v.only300 = false ∧ execView v s = if reads then onRead o f s else onStore o f s) ∨
    (v.only300 = true ∧ objPost o = false ∧ execView v s = only300 s (if reads then onRead o f s else onStore o f s))
  a : ∀ i, v.writesA = false → (f i).a = i.a
  z : ∀ i, v.writesZ = false → (f i).z = i.z
  c : ∀ i, v.writesC = false → (f i).c = i.c
  g : v.writesG = objPost o

/-- Every instruction on one nibble follows the template. -/
theorem template (v : View) (o : Obj) (ho : v.operand = some o) (s : State) : ∃ reads f, Template v o s reads f := by
  cases v <;> simp only [View.operand, Option.some.injEq, reduceCtorEq] at ho <;> subst ho
  case alu op q =>
    cases op <;>
      exact ⟨true, _, ⟨.inl ⟨rfl, rfl⟩, fun _ h => by first | rfl | (cases h), fun _ h => by first | rfl | (cases h),
        fun _ h => by first | rfl | (cases h), rfl⟩⟩
  case movToA q => exact ⟨true, _, ⟨.inl ⟨rfl, rfl⟩, fun _ h => by (cases h), fun _ h => by (cases h), fun _ _ => rfl, rfl⟩⟩
  case movFromA q => exact ⟨false, _, ⟨.inl ⟨rfl, rfl⟩, fun _ _ => rfl, fun _ _ => rfl, fun _ _ => rfl, rfl⟩⟩
  case imm op q y =>
    cases op
    case mov => exact ⟨false, _, ⟨.inl ⟨rfl, rfl⟩, fun _ h => by (cases h), fun _ h => by (cases h), fun _ _ => rfl, rfl⟩⟩
    all_goals
      exact ⟨true, _, ⟨.inl ⟨rfl, rfl⟩, fun _ h => by first | rfl | (cases h), fun _ h => by (cases h),
        fun _ h => by first | rfl | (cases h), rfl⟩⟩
  case bit op q n =>
    cases op <;>
      exact ⟨true, _, ⟨.inl ⟨rfl, rfl⟩, fun _ h => by first | rfl | (cases h), fun _ h => by (cases h),
        fun _ _ => rfl, rfl⟩⟩
  case baseN op q n =>
    cases op <;>
      exact ⟨true, _, ⟨.inl ⟨rfl, rfl⟩, fun _ h => by (cases h), fun _ h => by (cases h), fun _ h => by (cases h), rfl⟩⟩
  case mmov q m n =>
    exact ⟨true, _, ⟨.inr ⟨rfl, by cases q <;> rfl, rfl⟩, fun _ h => by (cases h), fun _ h => by (cases h), fun _ _ => rfl,
      by cases q <;> rfl⟩⟩
  case bmov q k n =>
    exact ⟨true, _, ⟨.inr ⟨rfl, by cases q <;> rfl, rfl⟩, fun _ h => by (cases h), fun _ h => by (cases h), fun _ _ => rfl,
      by cases q <;> rfl⟩⟩

/-- What an instruction on one nibble can do: if it answers a next state, it was ready, and this is the state. -/
theorem template_next {v : View} {o : Obj} {s t : State} {reads : Bool} {f : AluIn → AluOut}
    (h : Template v o s reads f) (ht : execView v s = .next t) :
    Ready o s ∧ ∃ x : AluIn, x.a = s.a ∧ x.z = s.z ∧ x.c = s.c ∧
      t = advance 1 (objClose o (applyOut (objAddr o s) (f x)
        (if reads then afterDmRead s (objAddr o s) else s))) := by
  have key : (if reads then onRead o f s else onStore o f s) = .next t := by
    rcases h.eq with ⟨_, e⟩ | ⟨_, _, e⟩
    · rw [← e, ht]
    · rw [ht] at e
      unfold only300 at e
      split at e
      · exact e.symm
      · cases e
  split at key
  · rename_i hr
    obtain ⟨h1, h2⟩ := ready_of_withObj key
    exact ⟨h1, _, rfl, rfl, rfl, by simpa [hr] using h2⟩
  · rename_i hr
    obtain ⟨h1, h2⟩ := ready_of_withObj key
    exact ⟨h1, _, rfl, rfl, rfl, by simpa [hr] using h2⟩

/-! ## The 8-bit transfers -/

/-- What the load form of an 8-bit transfer can do. -/
theorem loadByte_next {m : Ind} {n : Nat} {b : Byte} {s t u : State} (h : loadByte m n s b u = .next t) :
    dmPresent s (indAddr m s) = true ∧ dmPresent s (indAddr1 m s) = true ∧
      t = advance n (indClose m 2
        (dmLoadNibble (dmLoadNibble u (indAddr m s) (b.extractLsb' 0 4)) (indAddr1 m s) (b.extractLsb' 4 4))) := by
  simp only [loadByte] at h
  split at h
  · rename_i hp
    simp only [Bool.and_eq_true] at hp
    cases h
    exact ⟨hp.1, hp.2, rfl⟩
  · cases h

/-- What an 8-bit transfer can do: if it answers a next state, both addresses are implemented, and it loaded a byte or
stored one. -/
theorem byte_next {v : View} {m : Ind} {s t : State} (hm : v.byteOperand = some m) (ht : execView v s = .next t) :
    dmPresent s (indAddr m s) = true ∧ dmPresent s (indAddr1 m s) = true ∧
    ((∃ (n : Nat) (b : Byte) (u : State), (u = s ∨ ∃ a, u = afterXmRead s a) ∧
        t = advance n (indClose m 2
          (dmLoadNibble (dmLoadNibble u (indAddr m s) (b.extractLsb' 0 4)) (indAddr1 m s) (b.extractLsb' 4 4)))) ∨
     (∃ (n : Nat) (x : Word) (b : Byte),
        t = advance n (indClose m 2 (xmStore (afterDmRead (afterDmRead s (indAddr m s)) (indAddr1 m s)) x b)))) := by
  cases v <;> simp only [View.byteOperand, Option.some.injEq, reduceCtorEq] at hm <;> subst hm
  case rom h m f =>
    simp only [execView, runRom] at ht
    split at ht
    · cases ht
    · split at ht
      · cases ht
      · obtain ⟨h1, h2, h3⟩ := loadByte_next ht
        exact ⟨h1, h2, .inl ⟨_, _, _, .inl rfl, h3⟩⟩
  case xmLoad m f =>
    simp only [execView, runXmLoad] at ht
    split at ht
    · cases ht
    · obtain ⟨h1, h2, h3⟩ := loadByte_next ht
      exact ⟨h1, h2, .inl ⟨_, _, _, .inr ⟨_, rfl⟩, h3⟩⟩
  case xmStore f m =>
    have e : execView (.xmStore f m) s = runXmStore f m s := rfl
    rw [e, runXmStore] at ht
    split at ht
    · cases ht
    · split at ht
      · rename_i hp
        simp only [Bool.and_eq_true] at hp
        exact ⟨hp.1, hp.2, .inr ⟨_, _, _, (Host.Outcome.next.inj ht).symm⟩⟩
      · cases ht

/-! ## The other instructions -/

/-- What the instructions without an operand in data memory leave unchanged. -/
structure PlainEffect (v : View) (s t : State) : Prop where
  pm : t.pm = s.pm
  device : t.device = s.device
  env : t.env = s.env
  ram : t.ram = s.ram
  xm : t.xm = s.xm
  trace : ∃ new, t.trace = new ++ s.trace
  mieSaved : t.mieSaved = s.mieSaved
  halted : t.halted = s.halted ∨ (v = .halt ∧ t.halted = true ∧ t.pc = s.pc + 1 ∧ pmRead s (s.pc + 1) = some 0)
  a : v.writesA = false → t.a = s.a
  c : v.writesC = false → t.c = s.c
  z : v.writesZ = false → t.z = s.z
  g : v.writesG = false → t.g = s.g
  calls : v.movesSp = false → t.sp = s.sp ∧ t.cstack = s.cstack
  returns : v ∈ [View.rt, .rti, .rtnmi] → t.cstack = s.cstack
  rstack : v.isPush = false → t.rstack = s.rstack
  mie : v.writesMie = false → t.mie = s.mie

/-- What the instructions without an operand in data memory can do. -/
theorem plain_next {v : View} {s t : State} (ho : v.operand = none) (hb : v.byteOperand = none)
    (ht : execView v s = .next t) : PlainEffect v s t := by
  cases v <;> simp only [View.operand, View.byteOperand, reduceCtorEq] at ho hb
  case halt =>
    simp only [execView, runHalt] at ht
    split at ht
    · cases ht
    · split at ht
      · rename_i w hw h0
        cases ht
        subst h0
        exact ⟨rfl, rfl, rfl, rfl, rfl, ⟨[], rfl⟩, rfl, .inr ⟨rfl, rfl, rfl, hw⟩, fun _ => rfl, fun _ => rfl,
          fun _ => rfl, fun _ => rfl, fun _ => ⟨rfl, rfl⟩, fun _ => rfl, fun _ => rfl, fun _ => rfl⟩
      · cases ht
  case msa w =>
    simp only [execView, runMsa] at ht
    split at ht
    · cases ht
      exact ⟨rfl, rfl, rfl, rfl, rfl, ⟨[_], rfl⟩, rfl, .inl rfl, fun _ => rfl, fun _ => rfl,
        fun _ => rfl, fun _ => rfl, fun _ => ⟨rfl, rfl⟩, fun _ => rfl, fun _ => rfl, fun _ => rfl⟩
    · cases ht
  case fclr f =>
    have e : t = advance 1 (setFlags f false s) := by
      cases f <;> simp only [execView, runFclr, only300] at ht
      case flag =>
        split at ht <;> cases ht
        rfl
      all_goals
        cases ht
        rfl
    subst e
    cases f <;>
      exact ⟨rfl, rfl, rfl, rfl, rfl, ⟨[], rfl⟩, rfl, .inl rfl, fun _ => rfl, fun h => by first | rfl | (cases h),
        fun h => by first | rfl | (cases h), fun h => by first | rfl | (cases h), fun _ => ⟨rfl, rfl⟩, fun _ => rfl,
        fun _ => rfl, fun _ => rfl⟩
  case fset f =>
    have e : t = advance 1 (setFlags f true s) := by
      cases f <;> simp only [execView, runFset, only300] at ht
      case flag =>
        split at ht <;> cases ht
        rfl
      all_goals
        cases ht
        rfl
    subst e
    cases f <;>
      exact ⟨rfl, rfl, rfl, rfl, rfl, ⟨[], rfl⟩, rfl, .inl rfl, fun _ => rfl, fun h => by first | rfl | (cases h),
        fun h => by first | rfl | (cases h), fun h => by first | rfl | (cases h), fun _ => ⟨rfl, rfl⟩, fun _ => rfl,
        fun _ => rfl, fun _ => rfl⟩
  case push p =>
    cases p <;> cases ht <;>
      exact ⟨rfl, rfl, rfl, rfl, rfl, ⟨[], rfl⟩, rfl, .inl rfl, fun _ => rfl, fun _ => rfl, fun _ => rfl, fun _ => rfl,
        fun _ => ⟨rfl, rfl⟩, fun _ => rfl, fun h => by (cases h), fun _ => rfl⟩
  case pop p =>
    cases p <;> cases ht <;>
      exact ⟨rfl, rfl, rfl, rfl, rfl, ⟨[], rfl⟩, rfl, .inl rfl, fun h => by first | rfl | (cases h),
        fun h => by first | rfl | (cases h), fun h => by first | rfl | (cases h), fun h => by first | rfl | (cases h),
        fun _ => ⟨rfl, rfl⟩, fun _ => rfl, fun _ => rfl, fun _ => rfl⟩
  case incb p =>
    cases p <;> cases ht <;>
      exact ⟨rfl, rfl, rfl, rfl, rfl, ⟨[], rfl⟩, rfl, .inl rfl, fun _ => rfl, fun _ => rfl, fun _ => rfl,
        fun h => by (cases h), fun _ => ⟨rfl, rfl⟩, fun _ => rfl, fun _ => rfl, fun _ => rfl⟩
  case movReg r i =>
    cases r <;> cases ht <;>
      exact ⟨rfl, rfl, rfl, rfl, rfl, ⟨[], rfl⟩, rfl, .inl rfl, fun _ => rfl, fun _ => rfl, fun _ => rfl, fun _ => rfl,
        fun _ => ⟨rfl, rfl⟩, fun _ => rfl, fun _ => rfl, fun _ => rfl⟩
  all_goals
    cases ht
    exact ⟨rfl, rfl, rfl, rfl, rfl, ⟨[], rfl⟩, rfl, .inl rfl, fun h => by first | rfl | (cases h), fun _ => rfl,
      fun h => by first | rfl | (cases h), fun h => by first | rfl | (cases h),
      fun h => by first | exact ⟨rfl, rfl⟩ | (cases h), fun h => by first | rfl | (simp at h),
      fun _ => rfl, fun h => by first | rfl | (cases h)⟩

end Sys2Proof.Machine
end

