-- ==== Sys2Proof/Tests/Slice0.lean ====
section
/-! SUPPORT. The model's own tests: the smoke test of WellFormed, words written out from 30_encoding.md, single steps
from 95_test_vectors.md (each names its vector), and a state for every hypothesis of a statement. -/

namespace Sys2Proof.Tests

open Sys2Proof Sys2Proof.Machine

/-! ## WellFormed -/

/-- The bases 1, 0, 3 and 18 are no bases (30_encoding.md R145 (f)); every other operand range is its type's. -/
theorem test_wellFormed_refuses :
    Instr.wellFormed (.adcjHlN 0) = false ∧ Instr.wellFormed (.adcjHlN 1) = false ∧
    Instr.wellFormed (.sbcjCurN 0x40 3) = false ∧ Instr.wellFormed (.sbcjXyIncN 18) = false := by
  decide

theorem test_wellFormed_accepts :
    Instr.wellFormed (.adcjHlN 2) = true ∧ Instr.wellFormed (.sbcjCurN 0xFF 16) = true ∧
    Instr.wellFormed .nop = true := by
  decide

/-- MMOV is the nX-4/300's alone (30_encoding.md R148). -/
theorem test_providedOn :
    Instr.providedOn (.mmovHl 1 2) .nx250 = false ∧ Instr.providedOn (.mmovHl 1 2) .nx300 = true ∧
    Instr.providedOn .fclrC .nx250 = true ∧ Instr.providedOn .fsetFlag .nx250 = false := by
  decide

/-! ## Decoding -/

/-- Every word list decodes to its instruction, with nothing left, and is what the instruction encodes to. -/
def decodeAs : List (List Word × Instr) → Prop
  | [] => True
  | (ws, i) :: r => (decode ws = .ok i [] ∧ encode i = ws) ∧ decodeAs r

/-- Every word list is what the second spelling encodes to, and decodes to the primary instruction. -/
def spellAs : List (List Word × Instr × Instr) → Prop
  | [] => True
  | (ws, i, p) :: r => (encode i = ws ∧ decode ws = .ok p [] ∧ i.primary = p) ∧ spellAs r

/-- Words of the family, written out from 30_encoding.md, and what they decode to. -/
theorem test_decode_rotate_incdec_1 : decodeAs [
    ([0x20F3], .incSfr 0xF3), ([0x30D3], .incCur 0xD3), ([0x0520], .incHl), ([0x0530], .incXy),
    ([0x0500], .incEHl), ([0x0510], .incEXy), ([0x0528], .incHlInc), ([0x0538], .incXyInc), ([0x0508], .incEHlInc),
    ([0x0518], .incEXyInc), ([0x2182], .decSfr 0x82), ([0x3112], .decCur 0x12), ([0x0521], .decHl),
    ([0x0531], .decXy), ([0x0501], .decEHl), ([0x0511], .decEXy), ([0x0529], .decHlInc), ([0x0539], .decXyInc),
    ([0x0509], .decEHlInc), ([0x0519], .decEXyInc), ([0x22D4], .rolSfr 0xD4), ([0x3296], .rolCur 0x96),
    ([0x0426], .rolHl), ([0x0436], .rolXy), ([0x0406], .rolEHl), ([0x0416], .rolEXy), ([0x042E], .rolHlInc),
    ([0x043E], .rolXyInc), ([0x040E], .rolEHlInc), ([0x041E], .rolEXyInc), ([0x23DC], .rorSfr 0xDC),
    ([0x331F], .rorCur 0x1F), ([0x0427], .rorHl), ([0x0437], .rorXy), ([0x0407], .rorEHl), ([0x0417], .rorEXy),
    ([0x042F], .rorHlInc), ([0x043F], .rorXyInc), ([0x040F], .rorEHlInc), ([0x041F], .rorEXyInc)] := by
  repeat constructor

/-- Words of the family, written out from 30_encoding.md, and what they decode to. -/
theorem test_decode_rotate_incdec_2 : decodeAs [
    ([0x0018], .incbHl), ([0x0019], .incbXy), ([0x001A], .incwRa)] := by
  repeat constructor

/-- Words of the family, written out from 30_encoding.md, and what they decode to. -/
theorem test_decode_add_1 : decodeAs [
    ([0x2495], .addSfrA 0x95), ([0x348D], .addCurA 0x8D), ([0x0522], .addHlA), ([0x0532], .addXyA),
    ([0x0502], .addEHlA), ([0x0512], .addEXyA), ([0x052A], .addHlIncA), ([0x053A], .addXyIncA),
    ([0x050A], .addEHlIncA), ([0x051A], .addEXyIncA), ([0x2535], .adcSfrA 0x35), ([0x3551], .adcCurA 0x51),
    ([0x0523], .adcHlA), ([0x0533], .adcXyA), ([0x0503], .adcEHlA), ([0x0513], .adcEXyA), ([0x052B], .adcHlIncA),
    ([0x053B], .adcXyIncA), ([0x050B], .adcEHlIncA), ([0x051B], .adcEXyIncA), ([0x2640], .adcdSfrA 0x40),
    ([0x3694], .adcdCurA 0x94), ([0x0524], .adcdHlA), ([0x0534], .adcdXyA), ([0x0504], .adcdEHlA),
    ([0x0514], .adcdEXyA), ([0x052C], .adcdHlIncA), ([0x053C], .adcdXyIncA), ([0x050C], .adcdEHlIncA),
    ([0x051C], .adcdEXyIncA), ([0x8973], .addCurI 0x73 9), ([0x00AF], .addHlI 15), ([0x00BD], .addXyI 13),
    ([0x008C], .addEHlI 12), ([0x0092], .addEXyI 2), ([0x01AC], .addHlIncI 12), ([0x01BB], .addXyIncI 11),
    ([0x018C], .addEHlIncI 12), ([0x0198], .addEXyIncI 8), ([0x1138], .adcjCurN 0x38 2)] := by
  repeat constructor

/-- Words of the family, written out from 30_encoding.md, and what they decode to. -/
theorem test_decode_add_2 : decodeAs [
    ([0x0623], .adcjHlN 6), ([0x0630], .adcjXyN 16), ([0x0603], .adcjEHlN 6), ([0x0613], .adcjEXyN 6),
    ([0x0725], .adcjHlIncN 10), ([0x0735], .adcjXyIncN 10), ([0x0701], .adcjEHlIncN 2),
    ([0x0710], .adcjEXyIncN 16)] := by
  repeat constructor

/-- Words of the family, written out from 30_encoding.md, and what they decode to. -/
theorem test_decode_subtract_1 : decodeAs [
    ([0x2767], .subSfrA 0x67), ([0x3731], .subCurA 0x31), ([0x0525], .subHlA), ([0x0535], .subXyA),
    ([0x0505], .subEHlA), ([0x0515], .subEXyA), ([0x052D], .subHlIncA), ([0x053D], .subXyIncA),
    ([0x050D], .subEHlIncA), ([0x051D], .subEXyIncA), ([0x281D], .sbcSfrA 0x1D), ([0x3892], .sbcCurA 0x92),
    ([0x0526], .sbcHlA), ([0x0536], .sbcXyA), ([0x0506], .sbcEHlA), ([0x0516], .sbcEXyA), ([0x052E], .sbcHlIncA),
    ([0x053E], .sbcXyIncA), ([0x050E], .sbcEHlIncA), ([0x051E], .sbcEXyIncA), ([0x2907], .sbcdSfrA 0x07),
    ([0x39A3], .sbcdCurA 0xA3), ([0x0527], .sbcdHlA), ([0x0537], .sbcdXyA), ([0x0507], .sbcdEHlA),
    ([0x0517], .sbcdEXyA), ([0x052F], .sbcdHlIncA), ([0x053F], .sbcdXyIncA), ([0x050F], .sbcdEHlIncA),
    ([0x051F], .sbcdEXyIncA), ([0x9820], .subCurI 0x20 8), ([0x02AC], .subHlI 12), ([0x02B9], .subXyI 9),
    ([0x0283], .subEHlI 3), ([0x029B], .subEXyI 11), ([0x03AF], .subHlIncI 15), ([0x03BB], .subXyIncI 11),
    ([0x038E], .subEHlIncI 14), ([0x0399], .subEXyIncI 9), ([0x1D48], .sbcjCurN 0x48 10)] := by
  repeat constructor

/-- Words of the family, written out from 30_encoding.md, and what they decode to. -/
theorem test_decode_subtract_2 : decodeAs [
    ([0x062B], .sbcjHlN 6), ([0x0639], .sbcjXyN 2), ([0x0609], .sbcjEHlN 2), ([0x061B], .sbcjEXyN 6),
    ([0x072D], .sbcjHlIncN 10), ([0x0738], .sbcjXyIncN 16), ([0x070B], .sbcjEHlIncN 6),
    ([0x0718], .sbcjEXyIncN 16)] := by
  repeat constructor

/-- Words of the family, written out from 30_encoding.md, and what they decode to. -/
theorem test_decode_compare_logical_1 : decodeAs [
    ([0x2AA8], .cmpSfrA 0xA8), ([0x3AF0], .cmpCurA 0xF0), ([0x0424], .cmpHlA), ([0x0434], .cmpXyA),
    ([0x0404], .cmpEHlA), ([0x0414], .cmpEXyA), ([0x042C], .cmpHlIncA), ([0x043C], .cmpXyIncA),
    ([0x040C], .cmpEHlIncA), ([0x041C], .cmpEXyIncA), ([0x2B04], .andSfrA 0x04), ([0x3BC0], .andCurA 0xC0),
    ([0x0421], .andHlA), ([0x0431], .andXyA), ([0x0401], .andEHlA), ([0x0411], .andEXyA), ([0x0429], .andHlIncA),
    ([0x0439], .andXyIncA), ([0x0409], .andEHlIncA), ([0x0419], .andEXyIncA), ([0x2CE0], .orSfrA 0xE0),
    ([0x3C81], .orCurA 0x81), ([0x0422], .orHlA), ([0x0432], .orXyA), ([0x0402], .orEHlA), ([0x0412], .orEXyA),
    ([0x042A], .orHlIncA), ([0x043A], .orXyIncA), ([0x040A], .orEHlIncA), ([0x041A], .orEXyIncA),
    ([0x2D8C], .xorSfrA 0x8C), ([0x3DBE], .xorCurA 0xBE), ([0x0423], .xorHlA), ([0x0433], .xorXyA),
    ([0x0403], .xorEHlA), ([0x0413], .xorEXyA), ([0x042B], .xorHlIncA), ([0x043B], .xorXyIncA),
    ([0x040B], .xorEHlIncA), ([0x041B], .xorEXyIncA)] := by
  repeat constructor

/-- Words of the family, written out from 30_encoding.md, and what they decode to. -/
theorem test_decode_compare_logical_2 : decodeAs [
    ([0xA9EB], .cmpCurI 0xEB 9), ([0x06AA], .cmpHlI 10), ([0x06B3], .cmpXyI 3), ([0x0686], .cmpEHlI 6),
    ([0x069D], .cmpEXyI 13), ([0x07A4], .cmpHlIncI 4), ([0x07B9], .cmpXyIncI 9), ([0x0786], .cmpEHlIncI 6),
    ([0x079C], .cmpEXyIncI 12), ([0x5FF2], .andCurI 0xF2 15), ([0x0463], .andHlI 3), ([0x0472], .andXyI 2),
    ([0x044B], .andEHlI 11), ([0x0453], .andEXyI 3), ([0x056C], .andHlIncI 12), ([0x057B], .andXyIncI 11),
    ([0x0549], .andEHlIncI 9), ([0x0556], .andEXyIncI 6), ([0x6676], .orCurI 0x76 6), ([0x0262], .orHlI 2),
    ([0x0272], .orXyI 2), ([0x024D], .orEHlI 13), ([0x0257], .orEXyI 7), ([0x036C], .orHlIncI 12),
    ([0x0377], .orXyIncI 7), ([0x034D], .orEHlIncI 13), ([0x0355], .orEXyIncI 5), ([0x716B], .xorCurI 0x6B 1),
    ([0x0065], .xorHlI 5), ([0x0079], .xorXyI 9), ([0x0045], .xorEHlI 5), ([0x0051], .xorEXyI 1),
    ([0x0169], .xorHlIncI 9), ([0x017B], .xorXyIncI 11), ([0x0149], .xorEHlIncI 9),
    ([0x015C], .xorEXyIncI 12)] := by
  repeat constructor

/-- Words of the family, written out from 30_encoding.md, and what they decode to. -/
theorem test_decode_transfer_1 : decodeAs [
    ([0x2EE2], .xchASfr 0xE2), ([0x3EFE], .xchACur 0xFE), ([0x0321], .xchAHl), ([0x0331], .xchAXy),
    ([0x0301], .xchAEHl), ([0x0311], .xchAEXy), ([0x0329], .xchAHlInc), ([0x0339], .xchAXyInc),
    ([0x0309], .xchAEHlInc), ([0x0319], .xchAEXyInc), ([0xDA02], .movADirect 0xA02), ([0xC15B], .movDirectA 0x15B),
    ([0x0320], .movAHl), ([0x0420], .movHlA), ([0x0330], .movAXy), ([0x0430], .movXyA), ([0x0300], .movAEHl),
    ([0x0400], .movEHlA), ([0x0310], .movAEXy), ([0x0410], .movEXyA), ([0x0328], .movAHlInc),
    ([0x0428], .movHlIncA), ([0x0338], .movAXyInc), ([0x0438], .movXyIncA), ([0x0308], .movAEHlInc),
    ([0x0408], .movEHlIncA), ([0x0318], .movAEXyInc), ([0x0418], .movEXyIncA), ([0x01CA], .movAI 10),
    ([0x4629], .movCurI 0x29 6), ([0x0664], .movHlI 4), ([0x0676], .movXyI 6), ([0x0648], .movEHlI 8),
    ([0x0659], .movEXyI 9), ([0x0763], .movHlIncI 3), ([0x0775], .movXyIncI 5), ([0x074B], .movEHlIncI 11),
    ([0x075D], .movEXyIncI 13), ([0x0025], .movEbrI 5), ([0x003E], .movCbrI 14)] := by
  repeat constructor

/-- Words of the family, written out from 30_encoding.md, and what they decode to. -/
theorem test_decode_transfer_2 : decodeAs [
    ([0x010C], .movYRegI 12), ([0x011E], .movXRegI 14), ([0x0122], .movLRegI 2), ([0x0132], .movHRegI 2),
    ([0x020B], .movRa0I 11), ([0x0218], .movRa1I 8), ([0x022B], .movRa2I 11), ([0x0235], .movRa3I 5)] := by
  repeat constructor

/-- Words of the family, written out from 30_encoding.md, and what they decode to. -/
theorem test_decode_mask : decodeAs [
    ([0x2FC2], .mtstSfrA 0xC2), ([0x3FD9], .mtstCurA 0xD9), ([0x0425], .mtstHlA), ([0x0435], .mtstXyA),
    ([0x0405], .mtstEHlA), ([0x0415], .mtstEXyA), ([0x042D], .mtstHlIncA), ([0x043D], .mtstXyIncA),
    ([0x040D], .mtstEHlIncA), ([0x041D], .mtstEXyIncA), ([0xB20C], .mtstCurM 0x0C 2), ([0x04AA], .mtstHlM 10),
    ([0x04B8], .mtstXyM 8), ([0x048B], .mtstEHlM 11), ([0x0498], .mtstEXyM 8), ([0x05A5], .mtstHlIncM 5),
    ([0x05B5], .mtstXyIncM 5), ([0x0585], .mtstEHlIncM 5), ([0x059A], .mtstEXyIncM 10), ([0x04E2], .mmovHl 2 2),
    ([0x06F3], .mmovXy 3 3), ([0x02C8], .mmovEHl 8 1), ([0x06D2], .mmovEXy 2 3)] := by
  repeat constructor

/-- Words of second spellings, and the primary instruction they decode to (R146). -/
theorem test_decode_mask_second : spellAs [
    ([0x5F22], .mclrCurM 0x22 15, .andCurI 0x22 15), ([0x046F], .mclrHlM 15, .andHlI 15),
    ([0x0471], .mclrXyM 1, .andXyI 1), ([0x0445], .mclrEHlM 5, .andEHlI 5), ([0x0456], .mclrEXyM 6, .andEXyI 6),
    ([0x056D], .mclrHlIncM 13, .andHlIncI 13), ([0x057C], .mclrXyIncM 12, .andXyIncI 12),
    ([0x0546], .mclrEHlIncM 6, .andEHlIncI 6), ([0x0556], .mclrEXyIncM 6, .andEXyIncI 6),
    ([0x6B1B], .msetCurM 0x1B 11, .orCurI 0x1B 11), ([0x0269], .msetHlM 9, .orHlI 9),
    ([0x027F], .msetXyM 15, .orXyI 15), ([0x024F], .msetEHlM 15, .orEHlI 15), ([0x025C], .msetEXyM 12, .orEXyI 12),
    ([0x0368], .msetHlIncM 8, .orHlIncI 8), ([0x0378], .msetXyIncM 8, .orXyIncI 8),
    ([0x0343], .msetEHlIncM 3, .orEHlIncI 3), ([0x0355], .msetEXyIncM 5, .orEXyIncI 5),
    ([0x72A8], .mnotCurM 0xA8 2, .xorCurI 0xA8 2), ([0x0069], .mnotHlM 9, .xorHlI 9),
    ([0x0078], .mnotXyM 8, .xorXyI 8), ([0x0043], .mnotEHlM 3, .xorEHlI 3), ([0x0056], .mnotEXyM 6, .xorEXyI 6),
    ([0x0165], .mnotHlIncM 5, .xorHlIncI 5), ([0x0177], .mnotXyIncM 7, .xorXyIncI 7),
    ([0x0145], .mnotEHlIncM 5, .xorEHlIncI 5), ([0x015A], .mnotEXyIncM 10, .xorEXyIncI 10)] := by
  repeat constructor

/-- Words of second spellings, and the primary instruction they decode to (R146). -/
theorem test_decode_bit_second : spellAs [
    ([0xB2A1], .btstCurN 0xA1 1, .mtstCurM 0xA1 2), ([0x04A4], .btstHlN 2, .mtstHlM 4),
    ([0x04B2], .btstXyN 1, .mtstXyM 2), ([0x0488], .btstEHlN 3, .mtstEHlM 8), ([0x0492], .btstEXyN 1, .mtstEXyM 2),
    ([0x05A2], .btstHlIncN 1, .mtstHlIncM 2), ([0x05B8], .btstXyIncN 3, .mtstXyIncM 8),
    ([0x0584], .btstEHlIncN 2, .mtstEHlIncM 4), ([0x0594], .btstEXyIncN 2, .mtstEXyIncM 4),
    ([0x5DAF], .bclrCurN 0xAF 1, .andCurI 0xAF 13), ([0x046D], .bclrHlN 1, .andHlI 13),
    ([0x047B], .bclrXyN 2, .andXyI 11), ([0x044D], .bclrEHlN 1, .andEHlI 13), ([0x0457], .bclrEXyN 3, .andEXyI 7),
    ([0x056D], .bclrHlIncN 1, .andHlIncI 13), ([0x057D], .bclrXyIncN 1, .andXyIncI 13),
    ([0x054B], .bclrEHlIncN 2, .andEHlIncI 11), ([0x055D], .bclrEXyIncN 1, .andEXyIncI 13),
    ([0x64F0], .bsetCurN 0xF0 2, .orCurI 0xF0 4), ([0x0262], .bsetHlN 1, .orHlI 2),
    ([0x0272], .bsetXyN 1, .orXyI 2), ([0x0244], .bsetEHlN 2, .orEHlI 4), ([0x0252], .bsetEXyN 1, .orEXyI 2),
    ([0x0364], .bsetHlIncN 2, .orHlIncI 4), ([0x0378], .bsetXyIncN 3, .orXyIncI 8),
    ([0x0344], .bsetEHlIncN 2, .orEHlIncI 4), ([0x0352], .bsetEXyIncN 1, .orEXyIncI 2),
    ([0x78C0], .bnotCurN 0xC0 3, .xorCurI 0xC0 8), ([0x0064], .bnotHlN 2, .xorHlI 4),
    ([0x0078], .bnotXyN 3, .xorXyI 8), ([0x0044], .bnotEHlN 2, .xorEHlI 4), ([0x0054], .bnotEXyN 2, .xorEXyI 4),
    ([0x0162], .bnotHlIncN 1, .xorHlIncI 2), ([0x0178], .bnotXyIncN 3, .xorXyIncI 8),
    ([0x0144], .bnotEHlIncN 2, .xorEHlIncI 4), ([0x0152], .bnotEXyIncN 1, .xorEXyIncI 2),
    ([0x02E4], .bmovHl 2 1, .mmovHl 4 1), ([0x04F2], .bmovXy 1 2, .mmovXy 2 2),
    ([0x06C8], .bmovEHl 3 3, .mmovEHl 8 3), ([0x02D4], .bmovEXy 2 1, .mmovEXy 4 1)] := by
  repeat constructor

/-- Words of the family, written out from 30_encoding.md, and what they decode to. -/
theorem test_decode_rom_ext_1 : decodeAs [
    ([0x0322], .movhbHlRa), ([0x0332], .movhbXyRa), ([0x0302], .movhbEHlRa), ([0x0312], .movhbEXyRa),
    ([0x032A], .movhbHlIncRa), ([0x033A], .movhbXyIncRa), ([0x030A], .movhbEHlIncRa), ([0x031A], .movhbEXyIncRa),
    ([0x0324, 0x3C4A], .movhbHlCadr 0x3C4A), ([0x0334, 0x3032], .movhbXyCadr 0x3032),
    ([0x0304, 0x3EF7], .movhbEHlCadr 0x3EF7), ([0x0314, 0xA741], .movhbEXyCadr 0xA741),
    ([0x032C, 0xE201], .movhbHlIncCadr 0xE201), ([0x033C, 0xE07C], .movhbXyIncCadr 0xE07C),
    ([0x030C, 0x99BA], .movhbEHlIncCadr 0x99BA), ([0x031C, 0x833F], .movhbEXyIncCadr 0x833F),
    ([0x0323], .movlbHlRa), ([0x0333], .movlbXyRa), ([0x0303], .movlbEHlRa), ([0x0313], .movlbEXyRa),
    ([0x032B], .movlbHlIncRa), ([0x033B], .movlbXyIncRa), ([0x030B], .movlbEHlIncRa), ([0x031B], .movlbEXyIncRa),
    ([0x0325, 0xC71D], .movlbHlCadr 0xC71D), ([0x0335, 0xB5B0], .movlbXyCadr 0xB5B0),
    ([0x0305, 0x570C], .movlbEHlCadr 0x570C), ([0x0315, 0x9974], .movlbEXyCadr 0x9974),
    ([0x032D, 0x53C7], .movlbHlIncCadr 0x53C7), ([0x033D, 0x13F4], .movlbXyIncCadr 0x13F4),
    ([0x030D, 0x7BC8], .movlbEHlIncCadr 0x7BC8), ([0x031D, 0xA9FE], .movlbEXyIncCadr 0xA9FE),
    ([0x0326], .movxbHlRa), ([0x0336], .movxbXyRa), ([0x0306], .movxbEHlRa), ([0x0316], .movxbEXyRa),
    ([0x032E], .movxbHlIncRa), ([0x033E], .movxbXyIncRa), ([0x030E], .movxbEHlIncRa),
    ([0x031E], .movxbEXyIncRa)] := by
  repeat constructor

/-- Words of the family, written out from 30_encoding.md, and what they decode to. -/
theorem test_decode_rom_ext_2 : decodeAs [
    ([0x0327], .movxbRaHl), ([0x0337], .movxbRaXy), ([0x0307], .movxbRaEHl), ([0x0317], .movxbRaEXy),
    ([0x032F], .movxbRaHlInc), ([0x033F], .movxbRaXyInc), ([0x030F], .movxbRaEHlInc), ([0x031F], .movxbRaEXyInc),
    ([0x03E0, 0xA72F], .movxbHlXadr 0xA72F), ([0x03F0, 0xFCFE], .movxbXyXadr 0xFCFE),
    ([0x03C0, 0x4FF7], .movxbEHlXadr 0x4FF7), ([0x03D0, 0xDD40], .movxbEXyXadr 0xDD40),
    ([0x03E8, 0x3424], .movxbHlIncXadr 0x3424), ([0x03F8, 0x1D11], .movxbXyIncXadr 0x1D11),
    ([0x03C8, 0x75FE], .movxbEHlIncXadr 0x75FE), ([0x03D8, 0x247B], .movxbEXyIncXadr 0x247B),
    ([0x03E1, 0xED5F], .movxbXadrHl 0xED5F), ([0x03F1, 0x296D], .movxbXadrXy 0x296D),
    ([0x03C1, 0x623D], .movxbXadrEHl 0x623D), ([0x03D1, 0xF16E], .movxbXadrEXy 0xF16E),
    ([0x03E9, 0xED1A], .movxbXadrHlInc 0xED1A), ([0x03F9, 0x9ECF], .movxbXadrXyInc 0x9ECF),
    ([0x03C9, 0x38DA], .movxbXadrEHlInc 0x38DA), ([0x03D9, 0xD446], .movxbXadrEXyInc 0xD446)] := by
  repeat constructor

/-- Words of the family, written out from 30_encoding.md, and what they decode to. -/
theorem test_decode_rest : decodeAs [
    ([0x0000], .nop), ([0x0001], .halt), ([0x0002], .fclrG), ([0x0003], .fclrC), ([0x0004], .fclrZ),
    ([0x0005], .fclrFlag), ([0x0006], .fsetG), ([0x0007], .fsetC), ([0x0008], .fsetZ), ([0x0009], .fsetFlag),
    ([0x000B], .rt), ([0x000C], .rti), ([0x000D], .rtnmi), ([0x000E], .ei), ([0x000F], .di), ([0x0010], .pushHl),
    ([0x0011], .pushXy), ([0x0012], .popHl), ([0x0013], .popXy), ([0x0014, 0x6656], .ljmp 0x6656),
    ([0x0015, 0x2644], .lcal 0x2644), ([0x0016, 0xD7AE], .msa 0xD7AE), ([0x0017], .jmpPcA), ([0xE530], .jmp 0x530),
    ([0xFA09], .cal 0xA09), ([0x0916], .bng 0x96), ([0x0981], .sjmp 0x81), ([0x0B7D], .bc 0xFD),
    ([0x0AFA], .bnc 0x7A), ([0x0D23], .bz 0xA3), ([0x0DF4], .bnz 0xF4), ([0x0F7C], .ble 0xFC),
    ([0x0FCA], .bgt 0xCA)] := by
  repeat constructor

/-- Words of second spellings, and the primary instruction they decode to (R146). -/
theorem test_decode_rest_second : spellAs [
    ([0x0B1F], .blt 0x9F, .bc 0x9F), ([0x0AEF], .bge 0x6F, .bnc 0x6F), ([0x0D39], .beq 0xB9, .bz 0xB9),
    ([0x0DBC], .bne 0xBC, .bnz 0xBC)] := by
  repeat constructor
/-- Unassigned words at the ends of the ranges of 30_encoding.md R147, and a word cut short. -/
theorem test_decode_unassigned :
    decode [0x000A] = .undefinedOpcode 0x000A ∧ decode [0x001B] = .undefinedOpcode 0x001B ∧
    decode [0x01FF] = .undefinedOpcode 0x01FF ∧ decode [0x03C2] = .undefinedOpcode 0x03C2 ∧
    decode [0x05C0] = .undefinedOpcode 0x05C0 ∧ decode [0x07FF] = .undefinedOpcode 0x07FF ∧
    decode [0x0014] = .truncated ∧ decode [] = .truncated :=
  ⟨rfl, rfl, rfl, rfl, rfl, rfl, rfl, rfl⟩

/-- The host's numbering: the second word is bits 31 to 16, and bits from `nbits` on are 0. -/
theorem test_decodeTableWord :
    decodeTableWord 16 0x0523 = some .adcHlA ∧ decodeTableWord 32 0x02340014 = some (.ljmp 0x0234) ∧
    decodeTableWord 16 0x02340014 = some (.ljmp 0) ∧ decodeTableWord 16 0x03E4 = none :=
  ⟨rfl, rfl, rfl, rfl⟩

/-! ## Single steps -/

/-- The start state of 95_test_vectors.md section 0, on a device with its own parameters. -/
def start : State :=
  { State.reset with
    pc := 0x100
    cbr := 1
    ebr := 2
    device :=
      { core := .nx300
        dmImpl := [{ base := 0x100, size := 0xF00 }]
        xmStorage := [{ base := 0, size := 0xFF00 }]
        melody := true
        obj1Carry := .sameBank } }

/-- A step with the words of `w` at `pc` gives a state that has the property. -/
def gives (w : Nat) (s : State) (p : State → Bool) : Bool :=
  match step (s.withFetchWord 32 w) with
  | .next t => p t
  | .fault _ => false
  | .refused _ => false

/-- A step with the words of `w` at `pc` is refused so. -/
def refuses (w : Nat) (s : State) (r : Refusal) : Bool :=
  match step (s.withFetchWord 32 w) with
  | .next _ => false
  | .fault _ => false
  | .refused q => decide (q = r)

/-- A step with the words of `w` at `pc` faults so. -/
def faults (w : Nat) (s : State) (f : Fault) : Bool :=
  match step (s.withFetchWord 32 w) with
  | .next _ => false
  | .fault q => decide (q = f)
  | .refused _ => false

/-- Vector T1: MOV A, 234H. -/
theorem test_T1_mov_a_234h :
    gives 0xD234 ({ start with a := 7, ram := [(0x234, 0x0)] })
      (fun t => decide (t.pc = 0x0101) && decide (t.a = 0) && decide ((t.z, t.c, t.g) = (true, false, false)) &&
        decide (dmValue t 0x234 = 0x0)) = true := by
  decide

/-- Vector T2: MOV A, 0FFH. -/
theorem test_T2_mov_a_0ffh :
    gives 0xD0FF ({ start with mie := true, z := true })
      (fun t => decide (t.pc = 0x0101) && decide (t.a = 15) &&
        decide ((t.z, t.c, t.g) = (false, false, false))) = true := by
  decide

/-- Vector T5: MOV A, [HL+]. -/
theorem test_T5_mov_a_hl_inc :
    gives 0x0328 ({ start with h := 0xF, l := 0xF, ram := [(0x1FF, 0x6)] })
      (fun t => decide (t.pc = 0x0101) && decide (t.a = 6) && decide ((t.z, t.c, t.g) = (false, false, true)) &&
        decide (t.h = 0x0) && decide (t.l = 0x0) && decide (dmValue t 0x1FF = 0x6)) = true := by
  decide

/-- Vector T7: MOV A, #0. -/
theorem test_T7_mov_a_n0 :
    gives 0x01C0 ({ start with a := 5 })
      (fun t => decide (t.pc = 0x0101) && decide (t.a = 0) &&
        decide ((t.z, t.c, t.g) = (true, false, false))) = true := by
  decide

/-- Vector T9: MOV 326H, A. -/
theorem test_T9_mov_326h_a :
    gives 0xC326 ({ start with a := 11, z := true })
      (fun t => decide (t.pc = 0x0101) && decide (t.a = 11) && decide ((t.z, t.c, t.g) = (true, false, false)) &&
        decide (dmValue t 0x326 = 0xB)) = true := by
  decide

/-- Vector T12: MOV 0F7H, A. -/
theorem test_T12_mov_0f7h_a :
    gives 0xC0F7 ({ start with a := 9, sp := 5 })
      (fun t => decide (t.pc = 0x0101) && decide (t.a = 9) && decide ((t.z, t.c, t.g) = (false, false, false)) &&
        decide (t.sp = 5)) = true := by
  decide

/-- Vector T14: MOV [HL], A. -/
theorem test_T14_mov_hl_a :
    gives 0x0420 ({ start with a := 7, cbr := 0, h := 0xF, l := 0xB })
      (fun t => decide (t.pc = 0x0101) && decide (t.a = 7) && decide ((t.z, t.c, t.g) = (false, false, false)) &&
        decide (t.h = 0xF) && decide (t.l = 0x7)) = true := by
  decide

/-- Vector T17: MOV E:[HL+], #0. -/
theorem test_T17_mov_e_hl_inc_n0 :
    gives 0x0740 ({ start with a := 4, h := 0xF, l := 0xF })
      (fun t => decide (t.pc = 0x0101) && decide (t.a = 0) && decide ((t.z, t.c, t.g) = (true, false, true)) &&
        decide (t.h = 0x0) && decide (t.l = 0x0) && decide (dmValue t 0x2FF = 0x0)) = true := by
  decide

/-- Vector T18: MOV ¥32H, #5. -/
theorem test_T18_mov_cur_32h_n5 :
    gives 0x4532 ({ start with z := true })
      (fun t => decide (t.pc = 0x0101) && decide (t.a = 5) && decide ((t.z, t.c, t.g) = (false, false, false)) &&
        decide (dmValue t 0x132 = 0x5)) = true := by
  decide

/-- Vector T20: XCH A, ¥32H. -/
theorem test_T20_xch_a_cur_32h :
    gives 0x3E32 ({ start with a := 5, ram := [(0x132, 0xA)] })
      (fun t => decide (t.pc = 0x0101) && decide (t.a = 10) && decide ((t.z, t.c, t.g) = (false, false, false)) &&
        decide (dmValue t 0x132 = 0x5)) = true := by
  decide

/-- Vector T21: XCH A, 0FFH. -/
theorem test_T21_xch_a_0ffh :
    gives 0x2EFF ({ start with a := 0, mie := true, z := false })
      (fun t => decide (t.pc = 0x0101) && decide (t.a = 15) && decide ((t.z, t.c, t.g) = (false, false, false)) &&
        decide (t.mie = true)) = true := by
  decide

/-- Vector T22: MOV [HL+], A. -/
theorem test_T22_mov_hl_inc_a :
    refuses 0x0428 ({ start with a := 7, cbr := 0, h := 0xF, l := 0xB }) .postincThroughPairOrBank = true := by decide

/-- Vector T23: MOV A, [XY+]. -/
theorem test_T23_mov_a_xy_inc :
    gives 0x0338 ({ start with cbr := 0, x := 0xF, y := 0x8 })
      (fun t => decide (t.pc = 0x0101) && decide (t.a = 14) && decide ((t.z, t.c, t.g) = (false, false, false)) &&
        decide (t.x = 0xF) && decide (t.y = 0x9)) = true := by
  decide

/-- Vector S1: ROL [HL]. -/
theorem test_S1_rol_hl :
    gives 0x0426 ({ start with c := true, ram := [(0x100, 0x8)] })
      (fun t => decide (t.pc = 0x0101) && decide (t.a = 1) && decide ((t.z, t.c, t.g) = (false, true, false)) &&
        decide (dmValue t 0x100 = 0x1)) = true := by
  decide

/-- Vector S4: ROR E:[HL]. -/
theorem test_S4_ror_e_hl :
    gives 0x0407 ({ start with c := true, ram := [(0x200, 0x1)] })
      (fun t => decide (t.pc = 0x0101) && decide (t.a = 8) && decide ((t.z, t.c, t.g) = (false, true, false)) &&
        decide (dmValue t 0x200 = 0x8)) = true := by
  decide

/-- Vector S6: INC ¥32H. -/
theorem test_S6_inc_cur_32h :
    gives 0x3032 ({ start with ram := [(0x132, 0xF)] })
      (fun t => decide (t.pc = 0x0101) && decide (t.a = 0) && decide ((t.z, t.c, t.g) = (true, true, false)) &&
        decide (dmValue t 0x132 = 0x0)) = true := by
  decide

/-- Vector S8: INC 0F6H. -/
theorem test_S8_inc_0f6h :
    gives 0x20F6 ({ start with rsp := 15 })
      (fun t => decide (t.pc = 0x0101) && decide (t.a = 0) && decide ((t.z, t.c, t.g) = (true, true, false)) &&
        decide (t.rsp = 0)) = true := by
  decide

/-- Vector S9: INC [XY+]. -/
theorem test_S9_inc_xy_inc :
    gives 0x0538 ({ start with x := 0xF, y := 0xF, ram := [(0x1FF, 0x0)] })
      (fun t => decide (t.pc = 0x0101) && decide (t.a = 1) && decide ((t.z, t.c, t.g) = (false, false, true)) &&
        decide (t.x = 0x0) && decide (t.y = 0x0) && decide (dmValue t 0x1FF = 0x1)) = true := by
  decide

/-- Vector S10: DEC [XY]. -/
theorem test_S10_dec_xy :
    gives 0x0531 ({ start with ram := [(0x100, 0x0)] })
      (fun t => decide (t.pc = 0x0101) && decide (t.a = 15) && decide ((t.z, t.c, t.g) = (false, true, false)) &&
        decide (dmValue t 0x100 = 0xF)) = true := by
  decide

/-- Vector S12: DEC 0FCH. -/
theorem test_S12_dec_0fch :
    gives 0x21FC ({ start with h := 0x2, l := 0x0 })
      (fun t => decide (t.pc = 0x0101) && decide (t.a = 1) && decide ((t.z, t.c, t.g) = (false, false, false)) &&
        decide (t.h = 0x1) && decide (t.l = 0x0)) = true := by
  decide

/-- Vector S13: INCB HL. -/
theorem test_S13_incb_hl :
    gives 0x0018 ({ start with h := 0xF, l := 0xF, z := true })
      (fun t => decide (t.pc = 0x0101) && decide (t.a = 0) && decide ((t.z, t.c, t.g) = (true, false, true)) &&
        decide (t.h = 0x0) && decide (t.l = 0x0)) = true := by
  decide

/-- Vector S15: INCB XY. -/
theorem test_S15_incb_xy :
    gives 0x0019 ({ start with x := 0x7, y := 0xF })
      (fun t => decide (t.pc = 0x0101) && decide (t.a = 0) && decide ((t.z, t.c, t.g) = (false, false, false)) &&
        decide (t.x = 0x8) && decide (t.y = 0x0)) = true := by
  decide

/-- Vector S16: INCW RA. -/
theorem test_S16_incw_ra :
    gives 0x001A ({ start with ra3 := 0xF, ra2 := 0xF, ra1 := 0xF, ra0 := 0xF })
      (fun t => decide (t.pc = 0x0101) && decide (t.a = 0) && decide ((t.z, t.c, t.g) = (false, false, true)) &&
        decide (t.ra3 = 0x0) && decide (t.ra2 = 0x0) && decide (t.ra1 = 0x0) && decide (t.ra0 = 0x0)) = true := by
  decide

/-- Vector Q1: ADD [HL], A. -/
theorem test_Q1_add_hl_a :
    gives 0x0522 ({ start with a := 8, ram := [(0x100, 0x8)] })
      (fun t => decide (t.pc = 0x0101) && decide (t.a = 0) && decide ((t.z, t.c, t.g) = (true, true, false)) &&
        decide (dmValue t 0x100 = 0x0)) = true := by
  decide

/-- Vector Q3: ADD ¥20H, #9. -/
theorem test_Q3_add_cur_20h_n9 :
    gives 0x8920 ({ start with ram := [(0x120, 0x9)] })
      (fun t => decide (t.pc = 0x0101) && decide (t.a = 2) && decide ((t.z, t.c, t.g) = (false, true, false)) &&
        decide (dmValue t 0x120 = 0x2)) = true := by
  decide

/-- Vector Q4: ADD 0F9H, A. -/
theorem test_Q4_add_0f9h_a :
    gives 0x24F9 ({ start with a := 1, x := 0x0, y := 0xF })
      (fun t => decide (t.pc = 0x0101) && decide (t.a = 0) && decide ((t.z, t.c, t.g) = (true, true, false)) &&
        decide (t.x = 0x0) && decide (t.y = 0x0)) = true := by
  decide

/-- Vector Q5: ADC [HL], A. -/
theorem test_Q5_adc_hl_a :
    gives 0x0523 ({ start with a := 0, c := true, ram := [(0x100, 0xF)] })
      (fun t => decide (t.pc = 0x0101) && decide (t.a = 0) && decide ((t.z, t.c, t.g) = (true, true, false)) &&
        decide (dmValue t 0x100 = 0x0)) = true := by
  decide

/-- Vector Q7: ADCD [HL], A. -/
theorem test_Q7_adcd_hl_a :
    gives 0x0524 ({ start with a := 5, ram := [(0x100, 0x7)] })
      (fun t => decide (t.pc = 0x0101) && decide (t.a = 2) && decide ((t.z, t.c, t.g) = (false, true, false)) &&
        decide (dmValue t 0x100 = 0x2)) = true := by
  decide

/-- Vector Q11: ADCD [HL], A. -/
theorem test_Q11_adcd_hl_a :
    gives 0x0524 ({ start with a := 15, c := true, ram := [(0x100, 0xF)] })
      (fun t => decide (t.pc = 0x0101) && decide (t.a = 5) && decide ((t.z, t.c, t.g) = (false, true, false)) &&
        decide (dmValue t 0x100 = 0x5)) = true := by
  decide

/-- Vector Q14: ADCJ [HL], 10. -/
theorem test_Q14_adcj_hl_10 :
    gives 0x0625 ({ start with c := true, ram := [(0x100, 0x9)] })
      (fun t => decide (t.pc = 0x0101) && decide (t.a = 0) && decide ((t.z, t.c, t.g) = (true, true, false)) &&
        decide (dmValue t 0x100 = 0x0)) = true := by
  decide

/-- Vector Q16: ADCJ [HL], 16. -/
theorem test_Q16_adcj_hl_16 :
    gives 0x0620 ({ start with c := true, ram := [(0x100, 0xF)] })
      (fun t => decide (t.pc = 0x0101) && decide (t.a = 0) && decide ((t.z, t.c, t.g) = (true, true, false)) &&
        decide (dmValue t 0x100 = 0x0)) = true := by
  decide

/-- Vector Q19: ADCJ [HL], 10. -/
theorem test_Q19_adcj_hl_10 :
    gives 0x0625 ({ start with c := false, ram := [(0x100, 0xD)] })
      (fun t => decide (t.pc = 0x0101) && decide (t.a = 3) && decide ((t.z, t.c, t.g) = (false, true, false)) &&
        decide (dmValue t 0x100 = 0x3)) = true := by
  decide

/-- Vector Q20: SUB [HL], A. -/
theorem test_Q20_sub_hl_a :
    gives 0x0525 ({ start with a := 5, ram := [(0x100, 0x3)] })
      (fun t => decide (t.pc = 0x0101) && decide (t.a = 14) && decide ((t.z, t.c, t.g) = (false, true, false)) &&
        decide (dmValue t 0x100 = 0xE)) = true := by
  decide

/-- Vector Q22: SUB ¥20H, #1. -/
theorem test_Q22_sub_cur_20h_n1 :
    gives 0x9120 ({ start with ram := [(0x120, 0x0)] })
      (fun t => decide (t.pc = 0x0101) && decide (t.a = 15) && decide ((t.z, t.c, t.g) = (false, true, false)) &&
        decide (dmValue t 0x120 = 0xF)) = true := by
  decide

/-- Vector Q24: SBC [HL], A. -/
theorem test_Q24_sbc_hl_a :
    gives 0x0526 ({ start with a := 15, c := true, ram := [(0x100, 0x0)] })
      (fun t => decide (t.pc = 0x0101) && decide (t.a = 0) && decide ((t.z, t.c, t.g) = (true, true, false)) &&
        decide (dmValue t 0x100 = 0x0)) = true := by
  decide

/-- Vector Q26: SBCD [HL], A. -/
theorem test_Q26_sbcd_hl_a :
    gives 0x0527 ({ start with a := 9, c := true, ram := [(0x100, 0x0)] })
      (fun t => decide (t.pc = 0x0101) && decide (t.a = 0) && decide ((t.z, t.c, t.g) = (true, true, false)) &&
        decide (dmValue t 0x100 = 0x0)) = true := by
  decide

/-- Vector Q28: SBCJ [HL], 10. -/
theorem test_Q28_sbcj_hl_10 :
    gives 0x062D ({ start with c := true, ram := [(0x100, 0x0)] })
      (fun t => decide (t.pc = 0x0101) && decide (t.a = 9) && decide ((t.z, t.c, t.g) = (false, true, false)) &&
        decide (dmValue t 0x100 = 0x9)) = true := by
  decide

/-- Vector L1: CMP [HL], A. -/
theorem test_L1_cmp_hl_a :
    gives 0x0424 ({ start with a := 5, ram := [(0x100, 0x3)] })
      (fun t => decide (t.pc = 0x0101) && decide (t.a = 5) && decide ((t.z, t.c, t.g) = (false, true, false)) &&
        decide (dmValue t 0x100 = 0x3)) = true := by
  decide

/-- Vector L4: CMP ¥20H, #0FH. -/
theorem test_L4_cmp_cur_20h_n0fh :
    gives 0xAF20 ({ start with ram := [(0x120, 0xE)] })
      (fun t => decide (t.pc = 0x0101) && decide (t.a = 0) && decide ((t.z, t.c, t.g) = (false, true, false)) &&
        decide (dmValue t 0x120 = 0xE)) = true := by
  decide

/-- Vector L5: CMP [XY+], #0. -/
theorem test_L5_cmp_xy_inc_n0 :
    gives 0x07B0 ({ start with x := 0xF, y := 0xF, ram := [(0x1FF, 0x0)] })
      (fun t => decide (t.pc = 0x0101) && decide (t.a = 0) && decide ((t.z, t.c, t.g) = (true, false, true)) &&
        decide (t.x = 0x0) && decide (t.y = 0x0) && decide (dmValue t 0x1FF = 0x0)) = true := by
  decide

/-- Vector L6: AND E:[XY], A. -/
theorem test_L6_and_e_xy_a :
    gives 0x0411 ({ start with a := 10, c := true, ram := [(0x200, 0xC)] })
      (fun t => decide (t.pc = 0x0101) && decide (t.a = 8) && decide ((t.z, t.c, t.g) = (false, true, false)) &&
        decide (dmValue t 0x200 = 0x8)) = true := by
  decide

/-- Vector L7: AND [HL], #5. -/
theorem test_L7_and_hl_n5 :
    gives 0x0465 ({ start with ram := [(0x100, 0xA)] })
      (fun t => decide (t.pc = 0x0101) && decide (t.a = 0) && decide ((t.z, t.c, t.g) = (true, false, false)) &&
        decide (dmValue t 0x100 = 0x0)) = true := by
  decide

/-- Vector L8: OR [HL], A. -/
theorem test_L8_or_hl_a :
    gives 0x0422 ({ start with a := 1, z := true, ram := [(0x100, 0x8)] })
      (fun t => decide (t.pc = 0x0101) && decide (t.a = 9) && decide ((t.z, t.c, t.g) = (false, false, false)) &&
        decide (dmValue t 0x100 = 0x9)) = true := by
  decide

/-- Vector L9: OR [HL], #0. -/
theorem test_L9_or_hl_n0 :
    gives 0x0260 ({ start with a := 7, ram := [(0x100, 0x0)] })
      (fun t => decide (t.pc = 0x0101) && decide (t.a = 0) && decide ((t.z, t.c, t.g) = (true, false, false)) &&
        decide (dmValue t 0x100 = 0x0)) = true := by
  decide

/-- Vector L10: XOR [XY+], A. -/
theorem test_L10_xor_xy_inc_a :
    gives 0x043B ({ start with a := 6, x := 0x1, y := 0x0, ram := [(0x110, 0x6)] })
      (fun t => decide (t.pc = 0x0101) && decide (t.a = 0) && decide ((t.z, t.c, t.g) = (true, false, false)) &&
        decide (t.x = 0x1) && decide (t.y = 0x1) && decide (dmValue t 0x110 = 0x0)) = true := by
  decide

/-- Vector L12: XOR 0FDH, A. -/
theorem test_L12_xor_0fdh_a :
    gives 0x2DFD ({ start with a := 3, cbr := 1 })
      (fun t => decide (t.pc = 0x0101) && decide (t.a = 2) && decide ((t.z, t.c, t.g) = (false, false, false)) &&
        decide (t.cbr = 2)) = true := by
  decide

/-- Vector B2: MTST ¥35H, A. -/
theorem test_B2_mtst_cur_35h_a :
    gives 0x3F35 ({ start with a := 3, ram := [(0x135, 0xD)] })
      (fun t => decide (t.pc = 0x0101) && decide (t.a = 3) && decide ((t.z, t.c, t.g) = (true, false, false)) &&
        decide (dmValue t 0x135 = 0xD)) = true := by
  decide

/-- Vector B3: MTST ¥35H, A. -/
theorem test_B3_mtst_cur_35h_a :
    gives 0x3F35 ({ start with a := 0, z := true, ram := [(0x135, 0x0)] })
      (fun t => decide (t.pc = 0x0101) && decide (t.a = 0) && decide ((t.z, t.c, t.g) = (false, false, false)) &&
        decide (dmValue t 0x135 = 0x0)) = true := by
  decide

/-- Vector B4: MTST [HL], #0CH. -/
theorem test_B4_mtst_hl_n0ch :
    gives 0x04AC ({ start with ram := [(0x100, 0x4)] })
      (fun t => decide (t.pc = 0x0101) && decide (t.a = 0) && decide ((t.z, t.c, t.g) = (true, false, false)) &&
        decide (dmValue t 0x100 = 0x4)) = true := by
  decide

/-- Vector B5: MCLR [XY], #3. -/
theorem test_B5_mclr_xy_n3 :
    gives 0x0473 ({ start with ram := [(0x100, 0xF)] })
      (fun t => decide (t.pc = 0x0101) && decide (t.a = 3) && decide ((t.z, t.c, t.g) = (false, false, false)) &&
        decide (dmValue t 0x100 = 0x3)) = true := by
  decide

/-- Vector B7: MSET E:[HL], #0CH. -/
theorem test_B7_mset_e_hl_n0ch :
    gives 0x024C ({ start with z := true, ram := [(0x200, 0x1)] })
      (fun t => decide (t.pc = 0x0101) && decide (t.a = 13) && decide ((t.z, t.c, t.g) = (false, false, false)) &&
        decide (dmValue t 0x200 = 0xD)) = true := by
  decide

/-- Vector B8: MNOT [HL], #0FH. -/
theorem test_B8_mnot_hl_n0fh :
    gives 0x006F ({ start with ram := [(0x100, 0xF)] })
      (fun t => decide (t.pc = 0x0101) && decide (t.a = 0) && decide ((t.z, t.c, t.g) = (true, false, false)) &&
        decide (dmValue t 0x100 = 0x0)) = true := by
  decide

/-- Vector B9: MMOV [HL], #0AH, A.2. -/
theorem test_B9_mmov_hl_n0ah_a_2 :
    gives 0x04EA ({ start with a := 4, ram := [(0x100, 0x5)] })
      (fun t => decide (t.pc = 0x0101) && decide (t.a = 15) && decide ((t.z, t.c, t.g) = (false, false, false)) &&
        decide (dmValue t 0x100 = 0xF)) = true := by
  decide

/-- Vector B12: MMOV [HL], #0AH, A.2. -/
theorem test_B12_mmov_hl_n0ah_a_2 :
    refuses 0x04EA ({ start with
        a := 4, ram := [(0x100, 0x5)]
        device := { start.device with core := .nx250 } }) .notProvidedOn250 = true := by decide

/-- Vector B13: BTST [HL].2. -/
theorem test_B13_btst_hl_2 :
    gives 0x04A4 ({ start with ram := [(0x100, 0xB)] })
      (fun t => decide (t.pc = 0x0101) && decide (t.a = 0) && decide ((t.z, t.c, t.g) = (true, false, false)) &&
        decide (dmValue t 0x100 = 0xB)) = true := by
  decide

/-- Vector B15: BCLR [XY].3. -/
theorem test_B15_bclr_xy_3 :
    gives 0x0477 ({ start with ram := [(0x100, 0x8)] })
      (fun t => decide (t.pc = 0x0101) && decide (t.a = 0) && decide ((t.z, t.c, t.g) = (true, false, false)) &&
        decide (dmValue t 0x100 = 0x0)) = true := by
  decide

/-- Vector B16: BSET ¥00H.0. -/
theorem test_B16_bset_cur_00h_0 :
    gives 0x6100 ({ start with z := true, ram := [(0x100, 0x0)] })
      (fun t => decide (t.pc = 0x0101) && decide (t.a = 1) && decide ((t.z, t.c, t.g) = (false, false, false)) &&
        decide (dmValue t 0x100 = 0x1)) = true := by
  decide

/-- Vector B17: BNOT [HL].1. -/
theorem test_B17_bnot_hl_1 :
    gives 0x0062 ({ start with ram := [(0x100, 0x2)] })
      (fun t => decide (t.pc = 0x0101) && decide (t.a = 0) && decide ((t.z, t.c, t.g) = (true, false, false)) &&
        decide (dmValue t 0x100 = 0x0)) = true := by
  decide

/-- Vector B20: word 06E1H. -/
theorem test_B20_word_06e1h :
    gives 0x06E1 ({ start with a := 8, ram := [(0x100, 0x0)] })
      (fun t => decide (t.pc = 0x0101) && decide (t.a = 1) && decide ((t.z, t.c, t.g) = (false, false, false)) &&
        decide (dmValue t 0x100 = 0x1)) = true := by
  decide

/-- Vector X1: MOVLB [HL], 0FFEH. -/
theorem test_X1_movlb_hl_0ffeh :
    gives 0x0FFE0325 ({ start with h := 0x1, l := 0x0, pm := [(0x0FFE, 0xA1B2)] })
      (fun t => decide (t.pc = 0x0102) && decide (t.a = 0) && decide ((t.z, t.c, t.g) = (false, false, false)) &&
        decide (dmValue t 0x110 = 0x2) && decide (dmValue t 0x111 = 0xB)) = true := by
  decide

/-- Vector X2: MOVHB [HL], 0FFEH. -/
theorem test_X2_movhb_hl_0ffeh :
    gives 0x0FFE0324 ({ start with h := 0x1, l := 0x0, pm := [(0x0FFE, 0xA1B2)] })
      (fun t => decide (t.pc = 0x0102) && decide (t.a = 0) && decide ((t.z, t.c, t.g) = (false, false, false)) &&
        decide (dmValue t 0x110 = 0x1) && decide (dmValue t 0x111 = 0xA)) = true := by
  decide

/-- Vector X4: MOVHB E:[HL+], [RA]. -/
theorem test_X4_movhb_e_hl_inc_ra :
    gives 0x030A ({ start with
        h := 0xF, l := 0xE, ra3 := 0x0, ra2 := 0x3, ra1 := 0x0, ra0 := 0x0, pm := [(0x0300, 0x1234)] })
      (fun t => decide (t.pc = 0x0101) && decide (t.a = 0) && decide ((t.z, t.c, t.g) = (false, false, true)) &&
        decide (t.h = 0x0) && decide (t.l = 0x0) && decide (dmValue t 0x2FE = 0x2) &&
        decide (dmValue t 0x2FF = 0x1)) = true := by
  decide

/-- Vector X7: MOVXB [HL], 0FDCH. -/
theorem test_X7_movxb_hl_0fdch :
    gives 0x0FDC03E0 ({ start with h := 0x0, l := 0x0, xm := [(0x0FDC, 0xA1)] })
      (fun t => decide (t.pc = 0x0102) && decide (t.a = 0) && decide ((t.z, t.c, t.g) = (false, false, false)) &&
        decide (dmValue t 0x100 = 0x1) && decide (dmValue t 0x101 = 0xA)) = true := by
  decide

/-- Vector X10: MOVXB 4000H, E:[XY+]. -/
theorem test_X10_movxb_4000h_e_xy_inc :
    gives 0x400003D9 ({ start with x := 0xF, y := 0xE, ram := [(0x2FE, 0x1), (0x2FF, 0x2)] })
      (fun t => decide (t.pc = 0x0102) && decide (t.a = 0) && decide ((t.z, t.c, t.g) = (false, false, true)) &&
        decide (t.x = 0x0) && decide (t.y = 0x0) && decide (dmValue t 0x2FE = 0x1) &&
        decide (dmValue t 0x2FF = 0x2) && decide (xmValue t 0x4000 = 0x21)) = true := by
  decide

/-- Vector X11: MOVXB [RA], [HL]. -/
theorem test_X11_movxb_ra_hl :
    gives 0x0327 ({ start with
        cbr := 0, h := 0xF, l := 0xC, ra3 := 0x0, ra2 := 0x0, ra1 := 0x1, ra0 := 0x0 })
      (fun t => decide (t.pc = 0x0101) && decide (t.a = 0) && decide ((t.z, t.c, t.g) = (false, false, false)) &&
        decide (xmValue t 0x0010 = 0x0F)) = true := by
  decide

/-- Vector X13: MOVLB [HL], [RA]. -/
theorem test_X13_movlb_hl_ra :
    gives 0x0323 ({ start with
        h := 0xF, l := 0xF, ra3 := 0x0, ra2 := 0x3, ra1 := 0x0, ra0 := 0x0, pm := [(0x0300, 0x1234)]
        device := { start.device with obj1Carry := .sameBank } })
      (fun t => decide (t.pc = 0x0101) && decide (t.a = 0) && decide ((t.z, t.c, t.g) = (false, false, false)) &&
        decide (dmValue t 0x100 = 0x3) && decide (dmValue t 0x1FF = 0x4)) = true := by
  decide

/-- Vector X14: MOVLB [HL], [RA]. -/
theorem test_X14_movlb_hl_ra :
    gives 0x0323 ({ start with
        h := 0xF, l := 0xF, ra3 := 0x0, ra2 := 0x3, ra1 := 0x0, ra0 := 0x0, pm := [(0x0300, 0x1234)]
        device := { start.device with obj1Carry := .nextBank } })
      (fun t => decide (t.pc = 0x0101) && decide (t.a = 0) && decide ((t.z, t.c, t.g) = (false, false, false)) &&
        decide (dmValue t 0x1FF = 0x4) && decide (dmValue t 0x200 = 0x3)) = true := by
  decide

/-- Vector K2: PUSH XY. -/
theorem test_K2_push_xy :
    gives 0x0011 ({ start with x := 0xC, y := 0x4, cbr := 7, ebr := 14, rsp := 15 })
      (fun t => decide (t.pc = 0x0101) && decide (t.a = 0) && decide ((t.z, t.c, t.g) = (false, false, false)) &&
        decide (t.rsp = 0) && decide (regSlot t 15 = 0xE7C4)) = true := by
  decide

/-- Vector K5: POP XY. -/
theorem test_K5_pop_xy :
    gives 0x0013 ({ start with rsp := 0, rstack := State.reset.rstack.set 15 0xE7C4 })
      (fun t => decide (t.pc = 0x0101) && decide (t.a = 0) && decide ((t.z, t.c, t.g) = (false, false, false)) &&
        decide (t.rsp = 15) && decide (t.cbr = 7) && decide (t.ebr = 14) && decide (t.x = 0xC) &&
        decide (t.y = 0x4)) = true := by
  decide

/-- Vector K6: POP XY. -/
theorem test_K6_pop_xy :
    gives 0x0013 ({ start with
        rsp := 1, z := true, c := true, g := true, a := 6, rstack := State.reset.rstack.set 0 0x0000 })
      (fun t => decide (t.pc = 0x0101) && decide (t.a = 6) && decide ((t.z, t.c, t.g) = (true, true, true)) &&
        decide (t.rsp = 0) && decide (t.cbr = 0) && decide (t.ebr = 0) && decide (t.x = 0x0) &&
        decide (t.y = 0x0)) = true := by
  decide

/-- Vector K7: FCLR C. -/
theorem test_K7_fclr_c :
    gives 0x0003 ({ start with z := true, c := true, g := true })
      (fun t => decide (t.pc = 0x0101) && decide (t.a = 0) &&
        decide ((t.z, t.c, t.g) = (true, false, true))) = true := by
  decide

/-- Vector K8: FCLR Z. -/
theorem test_K8_fclr_z :
    gives 0x0004 ({ start with z := true, c := true, g := true })
      (fun t => decide (t.pc = 0x0101) && decide (t.a = 0) &&
        decide ((t.z, t.c, t.g) = (false, true, true))) = true := by
  decide

/-- Vector K9: FCLR G. -/
theorem test_K9_fclr_g :
    gives 0x0002 ({ start with z := true, c := true, g := true })
      (fun t => decide (t.pc = 0x0101) && decide (t.a = 0) &&
        decide ((t.z, t.c, t.g) = (true, true, false))) = true := by
  decide

/-- Vector K10: FCLR FLAG. -/
theorem test_K10_fclr_flag :
    gives 0x0005 ({ start with z := true, c := true, g := true })
      (fun t => decide (t.pc = 0x0101) && decide (t.a = 0) &&
        decide ((t.z, t.c, t.g) = (false, false, false))) = true := by
  decide

/-- Vector K11: FSET C. -/
theorem test_K11_fset_c :
    gives 0x0007 start
      (fun t => decide (t.pc = 0x0101) && decide (t.a = 0) &&
        decide ((t.z, t.c, t.g) = (false, true, false))) = true := by
  decide

/-- Vector K12: FSET Z. -/
theorem test_K12_fset_z :
    gives 0x0008 start
      (fun t => decide (t.pc = 0x0101) && decide (t.a = 0) &&
        decide ((t.z, t.c, t.g) = (true, false, false))) = true := by
  decide

/-- Vector K13: FSET G. -/
theorem test_K13_fset_g :
    gives 0x0006 start
      (fun t => decide (t.pc = 0x0101) && decide (t.a = 0) &&
        decide ((t.z, t.c, t.g) = (false, false, true))) = true := by
  decide

/-- Vector K14: FSET FLAG. -/
theorem test_K14_fset_flag :
    gives 0x0009 start
      (fun t => decide (t.pc = 0x0101) && decide (t.a = 0) &&
        decide ((t.z, t.c, t.g) = (true, true, true))) = true := by
  decide

/-- Vector K15: FSET FLAG. -/
theorem test_K15_fset_flag :
    refuses 0x0009 ({ start with device := { start.device with core := .nx250 } }) .notProvidedOn250 = true := by decide

/-- Vector J2: LJMP 0FFFFH. -/
theorem test_J2_ljmp_0ffffh :
    gives 0xFFFF0014 ({ start with pc := 0xFFFE })
      (fun t => decide (t.pc = 0xFFFF) && decide (t.a = 0) &&
        decide ((t.z, t.c, t.g) = (false, false, false))) = true := by
  decide

/-- Vector J4: JMP 050H. -/
theorem test_J4_jmp_050h :
    gives 0xE050 ({ start with pc := 0x2FFF })
      (fun t => decide (t.pc = 0x2050) && decide (t.a = 0) &&
        decide ((t.z, t.c, t.g) = (false, false, false))) = true := by
  decide

/-- Vector J7: SJMP -128 (80H). -/
theorem test_J7_sjmp_128 :
    gives 0x0980 ({ start with pc := 0x0010 })
      (fun t => decide (t.pc = 0xFF91) && decide (t.a = 0) &&
        decide ((t.z, t.c, t.g) = (false, false, false))) = true := by
  decide

/-- Vector J9: JMP PC+A. -/
theorem test_J9_jmp_pc_a :
    gives 0x0017 ({ start with pc := 0x0300, a := 0 })
      (fun t => decide (t.pc = 0x0301) && decide (t.a = 0) &&
        decide ((t.z, t.c, t.g) = (false, false, false))) = true := by
  decide

/-- Vector J11: BC +5 (05H). -/
theorem test_J11_bc_5 :
    gives 0x0A05 ({ start with pc := 0x0400, c := true })
      (fun t => decide (t.pc = 0x0406) && decide (t.a = 0) &&
        decide ((t.z, t.c, t.g) = (false, true, false))) = true := by
  decide

/-- Vector J12: BC +5 (05H). -/
theorem test_J12_bc_5 :
    gives 0x0A05 ({ start with pc := 0x0400, c := false })
      (fun t => decide (t.pc = 0x0401) && decide (t.a = 0) &&
        decide ((t.z, t.c, t.g) = (false, false, false))) = true := by
  decide

/-- Vector J13: BNC -2 (0FEH). -/
theorem test_J13_bnc_2 :
    gives 0x0BFE ({ start with pc := 0x0400, c := false })
      (fun t => decide (t.pc = 0x03FF) && decide (t.a = 0) &&
        decide ((t.z, t.c, t.g) = (false, false, false))) = true := by
  decide

/-- Vector J15: BZ +3 (03H). -/
theorem test_J15_bz_3 :
    gives 0x0C03 ({ start with pc := 0x0400, z := true })
      (fun t => decide (t.pc = 0x0404) && decide (t.a = 0) &&
        decide ((t.z, t.c, t.g) = (true, false, false))) = true := by
  decide

/-- Vector J17: BNZ -3 (0FDH). -/
theorem test_J17_bnz_3 :
    gives 0x0DFD ({ start with pc := 0x0400, z := false })
      (fun t => decide (t.pc = 0x03FE) && decide (t.a = 0) &&
        decide ((t.z, t.c, t.g) = (false, false, false))) = true := by
  decide

/-- Vector J19: BLE +16 (10H). -/
theorem test_J19_ble_16 :
    gives 0x0E10 ({ start with pc := 0x0400, c := false, z := true })
      (fun t => decide (t.pc = 0x0411) && decide (t.a = 0) &&
        decide ((t.z, t.c, t.g) = (true, false, false))) = true := by
  decide

/-- Vector J21: BLE +16 (10H). -/
theorem test_J21_ble_16 :
    gives 0x0E10 ({ start with pc := 0x0400, c := false, z := false })
      (fun t => decide (t.pc = 0x0401) && decide (t.a = 0) &&
        decide ((t.z, t.c, t.g) = (false, false, false))) = true := by
  decide

/-- Vector J22: BGT +16 (10H). -/
theorem test_J22_bgt_16 :
    gives 0x0E90 ({ start with pc := 0x0400, c := false, z := false })
      (fun t => decide (t.pc = 0x0411) && decide (t.a = 0) &&
        decide ((t.z, t.c, t.g) = (false, false, false))) = true := by
  decide

/-- Vector J23: BGT +16 (10H). -/
theorem test_J23_bgt_16 :
    gives 0x0E90 ({ start with pc := 0x0400, c := true, z := false })
      (fun t => decide (t.pc = 0x0401) && decide (t.a = 0) &&
        decide ((t.z, t.c, t.g) = (false, true, false))) = true := by
  decide

/-- Vector J25: BNG -4 (0FCH). -/
theorem test_J25_bng_4 :
    gives 0x097C ({ start with pc := 0x0400, g := false })
      (fun t => decide (t.pc = 0x03FD) && decide (t.a = 0) &&
        decide ((t.z, t.c, t.g) = (false, false, false))) = true := by
  decide

/-- Vector J27: LCAL 0400H. -/
theorem test_J27_lcal_0400h :
    gives 0x04000015 ({ start with pc := 0x0100 })
      (fun t => decide (t.pc = 0x0400) && decide (t.a = 0) && decide ((t.z, t.c, t.g) = (false, false, false)) &&
        decide (t.sp = 1) && decide (callSlot t 0 = 0x0101)) = true := by
  decide

/-- Vector J29: CAL 050H. -/
theorem test_J29_cal_050h :
    gives 0xF050 ({ start with pc := 0x2FFF, sp := 31 })
      (fun t => decide (t.pc = 0x2050) && decide (t.a = 0) && decide ((t.z, t.c, t.g) = (false, false, false)) &&
        decide (t.sp = 0) && decide (callSlot t 31 = 0x2FFF)) = true := by
  decide

/-- Vector J31: RT. -/
theorem test_J31_rt :
    gives 0x000B ({ start with pc := 0x0400, sp := 0, cstack := State.reset.cstack.set 31 0xFFFF })
      (fun t => decide (t.pc = 0x0000) && decide (t.a = 0) && decide ((t.z, t.c, t.g) = (false, false, false)) &&
        decide (t.sp = 31)) = true := by
  decide

/-- Vector J32: RTI. -/
theorem test_J32_rti :
    gives 0x000C ({ start with
        pc := 0x0020, sp := 2, mie := false, cstack := State.reset.cstack.set 1 0x01FF })
      (fun t => decide (t.pc = 0x0200) && decide (t.a = 0) && decide ((t.z, t.c, t.g) = (false, false, false)) &&
        decide (t.mie = true) && decide (t.sp = 1)) = true := by
  decide

/-- Vector J34: RTNMI. -/
theorem test_J34_rtnmi :
    gives 0x000D ({ start with
        pc := 0x0030, sp := 1, mie := true, mieSaved := false, cstack := State.reset.cstack.set 0 0x0123 })
      (fun t => decide (t.pc = 0x0124) && decide (t.a = 0) && decide ((t.z, t.c, t.g) = (false, false, false)) &&
        decide (t.mie = false) && decide (t.sp = 0)) = true := by
  decide

/-- Vector N1: NOP. -/
theorem test_N1_nop :
    gives 0x0000 ({ start with z := true, c := true, g := true, a := 5 })
      (fun t => decide (t.pc = 0x0101) && decide (t.a = 5) &&
        decide ((t.z, t.c, t.g) = (true, true, true))) = true := by
  decide

/-- Vector N2: HALT. -/
theorem test_N2_halt :
    gives 0x00000001 ({ start with pc := 0x0040 })
      (fun t => decide (t.pc = 0x0041) && decide (t.a = 0) && decide ((t.z, t.c, t.g) = (false, false, false)) &&
        decide (t.halted = true)) = true := by
  decide

/-- Vector N3: HALT. -/
theorem test_N3_halt :
    refuses 0x0E000001 ({ start with pc := 0x0040 }) .haltNotFollowedByNop = true := by decide

/-- Vector N4: EI. -/
theorem test_N4_ei :
    gives 0x000E ({ start with mie := false })
      (fun t => decide (t.pc = 0x0101) && decide (t.a = 0) && decide ((t.z, t.c, t.g) = (false, false, false)) &&
        decide (t.mie = true)) = true := by
  decide

/-- Vector N5: DI. -/
theorem test_N5_di :
    gives 0x000F ({ start with mie := true })
      (fun t => decide (t.pc = 0x0101) && decide (t.a = 0) && decide ((t.z, t.c, t.g) = (false, false, false)) &&
        decide (t.mie = false)) = true := by
  decide

/-- Vector N7: MOV EBR, #0FH. -/
theorem test_N7_mov_ebr_n0fh :
    gives 0x002F start
      (fun t => decide (t.pc = 0x0101) && decide (t.a = 0) && decide ((t.z, t.c, t.g) = (false, false, false)) &&
        decide (t.ebr = 15)) = true := by
  decide

/-- Vector N8: MOV CBR, #4H. -/
theorem test_N8_mov_cbr_n4h :
    gives 0x0034 ({ start with z := true, a := 9 })
      (fun t => decide (t.pc = 0x0101) && decide (t.a = 9) && decide ((t.z, t.c, t.g) = (true, false, false)) &&
        decide (t.cbr = 4)) = true := by
  decide

/-- Vector N10: MOV X, #2H. -/
theorem test_N10_mov_x_n2h :
    gives 0x0112 start
      (fun t => decide (t.pc = 0x0101) && decide (t.a = 0) && decide ((t.z, t.c, t.g) = (false, false, false)) &&
        decide (t.x = 0x2) && decide (t.y = 0x0)) = true := by
  decide

/-- Vector N15: MOV RA2, #0AH. -/
theorem test_N15_mov_ra2_n0ah :
    gives 0x022A start
      (fun t => decide (t.pc = 0x0101) && decide (t.a = 0) && decide ((t.z, t.c, t.g) = (false, false, false)) &&
        decide (t.ra3 = 0x0) && decide (t.ra2 = 0xA) && decide (t.ra1 = 0x0) && decide (t.ra0 = 0x0)) = true := by
  decide

/-- Vector N17: word 000AH. -/
theorem test_N17_word_000ah : refuses 0x000A start (.undefinedOpcode 0x000A) = true := by decide

/-- Vector N18: word 03E4H. -/
theorem test_N18_word_03e4h : refuses 0x000003E4 start (.undefinedOpcode 0x03E4) = true := by decide
/-- Vector K1: PUSH HL. -/
theorem test_K1_push_hl :
    ∃ t, exec .pushHl { start with a := 9, z := true, g := true, h := 5, l := 0xA, rsp := 3 } = .next t ∧
      t.rsp = 4 ∧ regSlot t 3 = flagPack true false true ++ 0x9#4 ++ 0x5#4 ++ 0xA#4 :=
  ⟨_, rfl, rfl, rfl⟩

/-- Vector K4: POP HL, whatever FLAGPACK is. -/
theorem test_K4_pop_hl :
    ∃ t, exec .popHl { start with
        c := true, rsp := 4, rstack := State.reset.rstack.set 3 (flagPack true false true ++ 0x95A#12) } = .next t ∧
      t.a = 9 ∧ t.h = 5 ∧ t.l = 0xA ∧ t.rsp = 3 :=
  ⟨_, rfl, by
    have e : ∀ f : Nibble, (f ++ 0x95A#12).extractLsb' 8 4 = 9 ∧ (f ++ 0x95A#12).extractLsb' 4 4 = 5 ∧
        (f ++ 0x95A#12).extractLsb' 0 4 = 10 := by decide
    exact ⟨(e _).1, (e _).2.1, (e _).2.2, rfl⟩⟩

/-- Vector N6: MSA tells the melody circuit the address; without one it is refused. -/
theorem test_N6_msa :
    gives 0x0C000016 { start with pc := 0x10 } (fun t => decide (t.pc = 0x12 ∧ t.trace = [.melodyStart 0x0C00])) = true ∧
    refuses 0x0C000016 { start with device := { start.device with melody := false } } .melodyCircuitAbsent = true := by
  decide

/-- Example E17: MTST 35H, A reads a peripheral SFR, which its device sees. -/
theorem test_E17_mtst_sfr :
    gives 0x2F35 { start with a := 3 } (fun t => decide (t.a = 3 ∧ t.trace = [.sfrRead 0x035] ∧ t.draws = 1)) = true := by
  decide

/-- An address the device does not implement. -/
theorem test_absent_data :
    faults 0x0420 { start with device := { start.device with dmImpl := [{ base := 0x200, size := 0x100 }] } }
      .dataAddressNotImplemented = true ∧
    step start = .fault .programAddressNotImplemented :=
  ⟨by decide, rfl⟩

/-- R90: an 8-bit load into CBR leaves it a drawn value, and RSP takes the byte's nibble. -/
theorem test_load_into_registers :
    ∃ t, exec (.movxbHlXadr 0x4000) { start with cbr := 0, h := 0xF, l := 0xD, xm := [(0x4000, 0x5A)] } = .next t ∧
      t.cbr = Config.freeNibble 0 ∧ t.ebr = Config.freeNibble 1 ∧ t.draws = 2 :=
  ⟨_, rfl, rfl, rfl, rfl⟩

/-- Vector I1: a maskable request with MIE = 1. -/
theorem test_I1_maskable :
    ∃ t, step { start with
        pc := 0x101, mie := true, a := 9, c := true, env := [{ Stimulus.quiet with irq := some 2 }] } = .next t ∧
      t.pc = 3 ∧ t.mie = false ∧ t.sp = 1 ∧ callSlot t 0 = 0x100 ∧ t.a = 9 ∧ t.c = true :=
  ⟨_, rfl, rfl, rfl, rfl, rfl, rfl, rfl⟩

/-- Vector I2: with MIE = 0 the instruction at `pc` executes. -/
theorem test_I2_masked :
    ∃ t, step { start.withFetchWord 16 0x000E with env := [{ Stimulus.quiet with irq := some 2 }] } = .next t ∧
      t.pc = 0x101 ∧ t.mie = true ∧ t.cycles = 1 :=
  ⟨_, rfl, rfl, rfl, rfl⟩

/-- Vector I3: a non-maskable request at `pc` 0000H with SP = 31. -/
theorem test_I3_non_maskable :
    ∃ t, step { start with
        pc := 0, mie := true, sp := 31, env := [{ Stimulus.quiet with nmi := some 0, irq := some 2 }] } = .next t ∧
      t.pc = 1 ∧ t.mie = false ∧ t.mieSaved = true ∧ t.sp = 0 ∧ callSlot t 31 = 0xFFFF :=
  ⟨_, rfl, rfl, rfl, rfl, rfl, rfl⟩

/-- R520: a halted core stays; R521: `HALT_WAKE` releases it, and the instruction at `pc` executes. -/
theorem test_halt_and_wake :
    step { start with halted := true } = .next { start with halted := true } ∧
    ∃ t, step { start.withFetchWord 16 0 with halted := true, env := [{ Stimulus.quiet with wake := true }] } = .next t ∧
      t.halted = false ∧ t.pc = 0x101 :=
  ⟨rfl, _, rfl, rfl, rfl⟩

/-- R551: a reset input. -/
theorem test_reset_input :
    ∃ t, step { start with halted := true, a := 7, env := [{ Stimulus.quiet with reset := true }] } = .next t ∧
      t.a = 0 ∧ t.pc = 0 ∧ t.halted = false ∧ t.ram = [] ∧ t.g = Config.resetG 1 :=
  ⟨_, rfl, rfl, rfl, rfl, rfl, rfl⟩

/-- The first step after reset runs the word placed. -/
theorem test_withFetchWord :
    ∃ t, step (State.reset.withFetchWord 16 0x01C9) = .next t ∧ t.a = 9 ∧ t.pc = 1 :=
  ⟨_, rfl, rfl, rfl⟩

/-! ## A state and operands for the hypotheses of each statement

`edge n` addresses 0F0H + `n` of bank 0 through [HL]: 0F8H and 0FFH are the last addresses on either side of those
closed to post-increment forms. -/

def edge (n : Nibble) : State := { start with cbr := 0, h := 0xF, l := n }

/-- A state whose next word is NOP. -/
def atNop : State := start.withFetchWord 16 0

theorem witness_DecodeOfEncode :
    Instr.wellFormed (.adcjHlN 2) = true ∧ Instr.wellFormed (.sbcjCurN 0xFF 16) = true ∧
    (Instr.sbcjCurN 0xFF 16).view.isPrimary = true ∧ (Instr.beq 0x80).view.isPrimary = false := by
  decide

theorem witness_EncodeOfDecode : decode [0x0014, 0x0234, 7] = .ok (.ljmp 0x0234) [7] := rfl

theorem witness_UnassignedWordsRefused :
    (∀ w ∈ [0x000A, 0x001B, 0x001F, 0x01D0, 0x01FF, 0x03C2, 0x03C7, 0x03FA, 0x03FF, 0x05C0, 0x05FF, 0x07C0, 0x07FF],
      Unassigned w) ∧
    (∀ w ∈ [0x0009, 0x000B, 0x001A, 0x0020, 0x01CF, 0x0200, 0x03C0, 0x03C1, 0x03C8, 0x03F9, 0x0400, 0x05BF, 0x0600,
      0x07BF, 0x0800], ¬ Unassigned w) ∧
    (let s := start.withFetchWord 16 0x07FF
     Quiet s ∧ s.halted = false ∧ pmRead s s.pc = some 0x07FF ∧ Unassigned (0x07FF#16).toNat) := by
  refine ⟨?_, ?_, .inl rfl, rfl, rfl, ?_⟩
  · simp [Unassigned]
  · simp [Unassigned]
  · simp [Unassigned]

theorem witness_SecondSpellingsAgree : Instr.wellFormed (.bclrHlN 3) = true ∧ Instr.primary (.bclrHlN 3) = .andHlI 7 :=
  ⟨rfl, rfl⟩

theorem witness_StepRunsDecoded :
    (let s := start.withFetchWord 16 0x0523
     Quiet s ∧ s.halted = false ∧ pmRead s s.pc = some 0x0523 ∧ decode [0x0523] = .ok .adcHlA []) ∧
    (let s := { start.withFetchWord 32 0x02340014 with env := [Stimulus.quiet] }
     Quiet s ∧ s.halted = false ∧ pmRead s s.pc = some 0x0014 ∧ pmRead s (s.pc + 1) = some 0x0234 ∧
       decode [0x0014, 0x0234] = .ok (.ljmp 0x0234) []) :=
  ⟨⟨.inl rfl, rfl, rfl, rfl⟩, .inr ⟨[], rfl⟩, rfl, rfl, rfl, rfl⟩

/-- A state with something in every memory that keeps the invariant, and its step; a halted one too. -/
theorem witness_InvKept :
    (let s := { atNop with ram := [(0x100, 1), (0xFFF, 2)], xm := [(0, 3), (0xFEFF, 4)] }
     Inv s ∧ ∃ t, step s = .next t) ∧
    (let s := { atNop with halted := true }
     Inv s ∧ ∃ t, step s = .next t) :=
  ⟨⟨⟨rfl, rfl, rfl, rfl, rfl, rfl, rfl, rfl, fun h => by cases h⟩, _, rfl⟩,
    ⟨rfl, rfl, rfl, rfl, rfl, rfl, rfl, rfl, fun _ => rfl⟩, _, rfl⟩

theorem witness_ProgramMemoryConstant :
    (∃ t, step atNop = .next t) ∧ (∃ t, exec .nop start = .next t) ∧
    (let t := { atNop with a := 5 }
     atNop.pc = t.pc ∧ atNop.pm = t.pm) :=
  ⟨⟨_, rfl⟩, ⟨_, rfl⟩, rfl, rfl⟩

theorem witness_TraceOnlyGrows :
    ∃ t, step (start.withFetchWord 16 0x2F35) = .next t ∧ t.trace = [.sfrRead 0x035] :=
  ⟨_, rfl, rfl⟩

theorem witness_ControlStateWriters :
    (∃ t, exec .incHl start = .next t) ∧ Instr.incHl.view.movesSp = false ∧ Instr.incHl.view.isPush = false ∧
    Instr.incHl.view.writesMie = false ∧ Instr.incHl ≠ .halt ∧
    (∃ t, exec .rti start = .next t) ∧ Instr.rti.view ∈ [View.rt, .rti, .rtnmi] :=
  ⟨⟨_, rfl⟩, rfl, rfl, rfl, by decide, ⟨_, rfl⟩, by decide⟩

theorem witness_FlagWriters :
    (∃ t, exec .movHlA start = .next t) ∧ Instr.movHlA.view.writesA = false ∧ Instr.movHlA.view.writesC = false ∧
    Instr.movHlA.view.writesZ = false ∧ Instr.movHlA.view.writesG = false :=
  ⟨⟨_, rfl⟩, rfl, rfl, rfl, rfl⟩

theorem witness_ResetValues : systemReset start ∈ [State.reset, systemReset start] := by
  simp

theorem witness_SystemResetStep :
    (let e := { Stimulus.quiet with reset := true }
     { start with env := [e, .quiet] }.env = e :: [.quiet] ∧ e.reset = true) :=
  ⟨rfl, rfl⟩

/-- Both ends of the start addresses, and a core that is woken by the same boundary. -/
theorem witness_MaskableEntry :
    (let e := { Stimulus.quiet with irq := some 0 }
     let s := { start with mie := true, env := [e] }
     s.env = [e] ∧ e.reset = false ∧ e.nmi = none ∧ e.irq = some 0 ∧ s.mie = true ∧ s.halted = false) ∧
    (let e := { Stimulus.quiet with irq := some 254, wake := true }
     let s := { start with mie := true, halted := true, env := [e] }
     s.env = [e] ∧ e.reset = false ∧ e.nmi = none ∧ e.irq = some 254 ∧ s.mie = true ∧ e.wake = true) :=
  ⟨⟨rfl, rfl, rfl, rfl, rfl, rfl⟩, rfl, rfl, rfl, rfl, rfl, rfl⟩

theorem witness_NonMaskableEntry :
    (let e := { Stimulus.quiet with nmi := some 0, irq := some 2 }
     let s := { start with env := [e] }
     s.env = [e] ∧ e.reset = false ∧ e.nmi = some 0 ∧ s.halted = false) ∧
    (let e := { Stimulus.quiet with nmi := some 254, wake := true }
     let s := { start with halted := true, env := [e] }
     s.env = [e] ∧ e.reset = false ∧ e.nmi = some 254 ∧ e.wake = true) :=
  ⟨⟨rfl, rfl, rfl, rfl⟩, rfl, rfl, rfl, rfl⟩

theorem witness_MaskedRequestWaits :
    (let e := { Stimulus.quiet with irq := some 2 }
     { start with env := [e] }.env = [e] ∧ { start with env := [e] }.mie = false) :=
  ⟨rfl, rfl⟩

theorem witness_HaltModeStep :
    (let s := { start with halted := true, mie := true, env := [{ Stimulus.quiet with irq := some 2 }] }
     s.halted = true ∧ ∀ e ∈ s.env.head?, e.reset = false ∧ e.wake = false) ∧
    (let e := { Stimulus.quiet with wake := true }
     let s := { start with halted := true, env := [e] }
     s.env = [e] ∧ e.reset = false ∧ e.wake = true ∧ e.nmi = none ∧ e.irq = none) := by
  refine ⟨⟨rfl, ?_⟩, rfl, rfl, rfl, rfl, rfl⟩
  simp [Stimulus.quiet]

theorem witness_ReturnsResume :
    (let s := { start with mie := true, sp := 31, pc := 0 }
     s.halted = false ∧ s.mie = true ∧
       (let u := { acceptIrq 2 s with a := 7, pc := 0x40 }
        u.cstack = (acceptIrq 2 s).cstack ∧ u.sp = (acceptIrq 2 s).sp) ∧
       (let u := { acceptNmi 0 s with a := 7, mie := true, pc := 0x40 }
        u.cstack = (acceptNmi 0 s).cstack ∧ u.sp = (acceptNmi 0 s).sp ∧ u.mieSaved = (acceptNmi 0 s).mieSaved)) :=
  ⟨rfl, rfl, ⟨rfl, rfl⟩, rfl, rfl, rfl⟩

/-- Pairs 0FEH and 0FFH, and either `OBJ1_CARRY`. -/
theorem witness_OperandAddresses :
    pairValue (indPair .hlInc) (edge 0xE) ≠ 255 ∧
    pairValue (indPair .hlInc) (edge 0xF) = 255 ∧ (edge 0xF).device.obj1Carry = .sameBank ∧
    (let s := { edge 0xF with cbr := 0xF, device := { start.device with obj1Carry := .nextBank } }
     pairValue (indPair .hl) s = 255 ∧ s.device.obj1Carry = .nextBank) := by
  decide

theorem witness_DataMemoryReadsAfterWrite :
    ∀ b ∈ ([0x0F2, 0x0F7, 0x0F8, 0x0FF, 0x100, 0xFFF] : List DataAddr), 0xF2 ≤ b.toNat := by
  decide

/-! A post-increment form is ready at 0F8H, 0FFH and 100H; the other forms everywhere; an 8-bit transfer with
post-increment at 0F7H and 0F8H, and at 0FFH if the nibble after it is 000H. -/

theorem ready_post (n : Nibble) (h : n.toNat ≤ 8 ∨ n = 15) : Ready (.ind .hlInc) (edge n) := by
  revert n
  unfold Ready
  decide

theorem ready_plain (n : Nibble) : Ready (.ind .hl) (edge n) := by
  revert n
  unfold Ready
  decide

theorem ready_direct : Ready (.direct 0xFFF) start ∧ Ready (.direct 0x000) start ∧ Ready (.sfr 0xFF) start ∧
    Ready (.cur 0xFF) start := by
  unfold Ready
  decide

theorem ready_byte (n : Nibble) (h : n.toNat ≤ 7 ∨ n = 15) : ReadyByte .hlInc (edge n) := by
  revert n
  unfold ReadyByte
  decide

theorem ready_byte_plain (n : Nibble) : ReadyByte .hl (edge n) := by
  revert n
  unfold ReadyByte
  decide

theorem witness_MovRuns :
    Ready (movObj (.ind .hlInc)) (edge 8) ∧ Instr.movAHlInc.view = .movToA (.ind .hlInc) ∧
    Instr.movHlIncA.view = .movFromA (.ind .hlInc) ∧
    Ready (movObj (.direct 0xFFF)) start ∧ (Instr.movADirect 0xFFF).view = .movToA (.direct 0xFFF) :=
  ⟨ready_post 8 (by decide), rfl, rfl, ready_direct.1, rfl⟩

theorem witness_MovImmediateRuns :
    (Instr.movHlIncI 0).view = .imm .mov (.ind .hlInc) 0 ∧ Ready (immObj (.ind .hlInc)) (edge 15) ∧
    (Instr.movCurI 0xFF 15).view = .imm .mov (.cur 0xFF) 15 ∧ Ready (immObj (.cur 0xFF)) start :=
  ⟨rfl, ready_post 15 (by decide), rfl, ready_direct.2.2.2⟩

theorem witness_ExchangeRuns :
    Instr.xchAHlInc.view = .alu .xch (.ind .hlInc) ∧ Ready (aluObj (.ind .hlInc)) (edge 8) ∧
    (Instr.xchASfr 0xFF).view = .alu .xch (.sfr 0xFF) ∧ Ready (aluObj (.sfr 0xFF)) start :=
  ⟨rfl, ready_post 8 (by decide), rfl, ready_direct.2.2.1⟩

theorem witness_RotatesRun :
    Ready (aluObj (.ind .hl)) (edge 9) ∧ Instr.rolHl.view = .alu .rol (.ind .hl) ∧
    Instr.rorHl.view = .alu .ror (.ind .hl) :=
  ⟨ready_plain 9, rfl, rfl⟩

theorem witness_IncrementDecrementRun :
    Ready (aluObj (.ind .hlInc)) (edge 15) ∧ Instr.incHlInc.view = .alu .inc (.ind .hlInc) ∧
    Instr.decHlInc.view = .alu .dec (.ind .hlInc) :=
  ⟨ready_post 15 (by decide), rfl, rfl⟩

theorem witness_AddRuns :
    Ready (aluObj (.sfr 0xFF)) start ∧ (Instr.addSfrA 0xFF).view = .alu .add (.sfr 0xFF) ∧
    (Instr.adcSfrA 0xFF).view = .alu .adc (.sfr 0xFF) :=
  ⟨ready_direct.2.2.1, rfl, rfl⟩

theorem witness_AddSubtractImmediateRun :
    Ready (immObj (.ind .hlInc)) (edge 8) ∧ (Instr.addHlIncI 15).view = .imm .add (.ind .hlInc) 15 ∧
    (Instr.subHlIncI 15).view = .imm .sub (.ind .hlInc) 15 :=
  ⟨ready_post 8 (by decide), rfl, rfl⟩

theorem witness_SubtractRuns :
    Ready (aluObj (.ind .hl)) (edge 12) ∧ Instr.subHlA.view = .alu .sub (.ind .hl) ∧
    Instr.sbcHlA.view = .alu .sbc (.ind .hl) :=
  ⟨ready_plain 12, rfl, rfl⟩

theorem witness_DecimalRuns :
    Ready (aluObj (.ind .hl)) (edge 0) ∧ Instr.adcdHlA.view = .alu .adcd (.ind .hl) ∧
    Instr.sbcdHlA.view = .alu .sbcd (.ind .hl) :=
  ⟨ready_plain 0, rfl, rfl⟩

theorem witness_BaseAdjustRuns :
    Instr.wellFormed (.adcjHlN 2) = true ∧ Ready (immObj (.ind .hl)) (edge 6) ∧
    (Instr.adcjHlN 2).view = .baseN .adcj (.ind .hl) 2 ∧
    Instr.wellFormed (.sbcjHlN 16) = true ∧ (Instr.sbcjHlN 16).view = .baseN .sbcj (.ind .hl) 16 :=
  ⟨rfl, ready_plain 6, rfl, rfl, rfl⟩

theorem witness_CompareRuns :
    Instr.cmpHlIncA.view = .alu .cmp (.ind .hlInc) ∧ Ready (aluObj (.ind .hlInc)) (edge 8) ∧
    (Instr.cmpHlIncI 0).view = .imm .cmp (.ind .hlInc) 0 ∧ Ready (immObj (.ind .hlInc)) (edge 8) :=
  ⟨rfl, ready_post 8 (by decide), rfl, ready_post 8 (by decide)⟩

theorem witness_LogicalRuns :
    Instr.andHlA.view = .alu .and (.ind .hl) ∧ Instr.orHlA.view = .alu .or (.ind .hl) ∧
    Instr.xorHlA.view = .alu .xor (.ind .hl) ∧ (∀ op ∈ [AluOp.and, .or, .xor], op ∈ [AluOp.and, .or, .xor]) ∧
    Ready (aluObj (.ind .hl)) (edge 13) :=
  ⟨rfl, rfl, rfl, fun _ h => h, ready_plain 13⟩

theorem witness_LogicalImmediateRuns :
    (Instr.andHlI 5).view = .imm .and (.ind .hl) 5 ∧ (Instr.mclrHlM 5).view = .imm .mclr (.ind .hl) 5 ∧
    (Instr.orHlI 5).view = .imm .or (.ind .hl) 5 ∧ (Instr.msetHlM 5).view = .imm .mset (.ind .hl) 5 ∧
    (Instr.xorHlI 5).view = .imm .xor (.ind .hl) 5 ∧ (Instr.mnotHlM 5).view = .imm .mnot (.ind .hl) 5 ∧
    ImmOp.mclr ∈ [ImmOp.and, .mclr, .or, .mset, .xor, .mnot] ∧ Ready (immObj (.ind .hl)) (edge 13) :=
  ⟨rfl, rfl, rfl, rfl, rfl, rfl, by decide, ready_plain 13⟩

theorem witness_BitTestsRun :
    Instr.mtstHlIncA.view = .alu .mtst (.ind .hlInc) ∧ Ready (aluObj (.ind .hlInc)) (edge 8) ∧
    (Instr.mtstHlIncM 0).view = .imm .mtst (.ind .hlInc) 0 ∧ Ready (immObj (.ind .hlInc)) (edge 8) ∧
    (Instr.btstHlIncN 3).view = .bit .btst (.ind .hlInc) 3 :=
  ⟨rfl, ready_post 8 (by decide), rfl, ready_post 8 (by decide), rfl⟩

theorem witness_BitWritesRun :
    (Instr.bclrHlN 0).view = .bit .bclr (.ind .hl) 0 ∧ (Instr.bsetHlN 3).view = .bit .bset (.ind .hl) 3 ∧
    (Instr.bnotHlN 3).view = .bit .bnot (.ind .hl) 3 ∧ BitOp.bnot ∈ [BitOp.bclr, .bset, .bnot] ∧
    Ready (immObj (.ind .hl)) (edge 15) :=
  ⟨rfl, rfl, rfl, by decide, ready_plain 15⟩

theorem witness_BitMovesRun :
    (edge 12).device.core = .nx300 ∧ Ready (.ind IndFixed.hl.toInd) (edge 12) ∧
    (Instr.mmovHl 10 2).view = .mmov .hl 10 2 ∧ (Instr.bmovHl 3 0).view = .bmov .hl 3 0 :=
  ⟨rfl, ready_plain 12, rfl, rfl⟩

theorem witness_RomTransfersRun :
    Instr.movlbHlIncRa.view = .rom .lb .hlInc .ra ∧ ReadyByte .hlInc (edge 7) ∧
    pmRead { edge 7 with pm := [(0, 0xA1B2)] } 0 = some 0xA1B2 ∧
    (Instr.movhbHlCadr 0xFFFF).view = .rom .hb .hl (.adr 0xFFFF) ∧ ReadyByte .hl (edge 15) :=
  ⟨rfl, ready_byte 7 (by decide), rfl, rfl, ready_byte_plain 15⟩

/-- Plain storage that was written, and an address at a device. -/
theorem witness_ExternalLoadsRun :
    Instr.movxbHlIncRa.view = .xmLoad .hlInc .ra ∧ ReadyByte .hlInc (edge 15) ∧
    (let s := { edge 15 with xm := [(0, 0x5C)] }
     xmIsStorage s 0 = true ∧ Memory.read s.xm 0 = some 0x5C ∧ xmIsStorage s 0xFF00 = false) :=
  ⟨rfl, ready_byte 15 (by decide), rfl, rfl, rfl⟩

theorem witness_ExternalStoresRun :
    Instr.movxbRaHlInc.view = .xmStore .ra .hlInc ∧ ReadyByte .hlInc (edge 7) ∧
    (Instr.movxbXadrHl 0xFF00).view = .xmStore (.adr 0xFF00) .hl ∧ ReadyByte .hl (edge 12) :=
  ⟨rfl, ready_byte 7 (by decide), rfl, ready_byte_plain 12⟩

theorem witness_PopUndoesPush :
    (∃ t, exec .pushHl { start with rsp := 15 } = .next t ∧ t.rsp = 0 ∧ t.rstack = { t with a := 7 }.rstack ∧
      t.rsp = { t with a := 7 }.rsp) ∧
    (∃ t, exec .pushXy start = .next t ∧ t.rstack = { t with x := 7 }.rstack ∧ t.rsp = { t with x := 7 }.rsp) :=
  ⟨⟨_, rfl, rfl, rfl, rfl⟩, _, rfl, rfl, rfl⟩

theorem witness_FlagInstructionsRun :
    start.device.core = .nx300 ∧ { start with device := { start.device with core := .nx250 } }.device.core = .nx250 :=
  ⟨rfl, rfl⟩

theorem witness_BranchesRun :
    (Instr.bgt 0x80).view = .branch .bgt 0x80 ∧ (Instr.blt 0x7F).view = .branch .blt 0x7F ∧
    (Instr.ble 0xFF).view = .branch .ble 0xFF ∧ (Instr.bng 0).view = .branch .bng 0 :=
  ⟨rfl, rfl, rfl, rfl⟩

theorem witness_ReturnAfterCall :
    (∃ t, exec (.lcal 0x400) { start with sp := 31, pc := 0xFFFE } = .next t ∧ t.sp = 0 ∧
      { t with pc := 0x500 }.cstack = t.cstack ∧ { t with pc := 0x500 }.sp = t.sp) ∧
    (∃ t, exec (.cal 0x800) start = .next t ∧ { t with pc := 0x500 }.cstack = t.cstack ∧
      { t with pc := 0x500 }.sp = t.sp) :=
  ⟨⟨_, rfl, rfl, rfl, rfl⟩, _, rfl, rfl, rfl⟩

theorem witness_HaltRuns :
    pmRead (start.withFetchWord 32 0x00000001) 0x101 = some 0 ∧
    pmRead (start.withFetchWord 32 0x0E000001) 0x101 = some 0x0E00 ∧ (0x0E00#16) ≠ 0 := by
  decide

theorem witness_MelodyStartRuns :
    start.device.melody = true ∧ { start with device := { start.device with melody := false } }.device.melody = false :=
  ⟨rfl, rfl⟩

/-- Both ends of 0F9H to 0FEH, for one nibble and for either nibble of two. -/
theorem witness_PostIncrementHazardRefused :
    Instr.incHlInc.view.operand = some (.ind .hlInc) ∧ objPost (.ind .hlInc) = true ∧
    (∀ n ∈ ([9, 14] : List Nibble), 0xF9 ≤ (objAddr (.ind .hlInc) (edge n)).toNat ∧
      (objAddr (.ind .hlInc) (edge n)).toNat ≤ 0xFE) ∧
    Instr.movlbHlIncRa.view.byteOperand = some .hlInc ∧ indPost .hlInc = true ∧
    (indAddr1 .hlInc (edge 8)).toNat = 0xF9 ∧ (indAddr .hlInc (edge 14)).toNat = 0xFE := by
  decide

theorem witness_RefusedOn250 :
    { start with device := { start.device with core := .nx250 } }.device.core = .nx250 ∧
    Instr.providedOn (.bmovHl 1 2) .nx250 = false ∧ Instr.providedOn .halt .nx250 = true := by
  decide

/-- A device with the data RAM 200H to 2FFH alone. -/
theorem witness_AbsentDataFaults :
    (let s := { start with device := { start.device with dmImpl := [{ base := 0x200, size := 0x100 }] } }
     Instr.movAHl.view.operand = some (.ind .hl) ∧ Instr.movAHl.providedOn s.device.core = true ∧
       dmPresent s (objAddr (.ind .hl) s) = false ∧
       (let u := { s with cbr := 2, h := 0xF, l := 0xF, device := { s.device with obj1Carry := .nextBank } }
        Instr.movxbHlRa.view.byteOperand = some .hl ∧ byteHazard .hl u = false ∧
          dmPresent u (indAddr .hl u) = true ∧ dmPresent u (indAddr1 .hl u) = false)) := by
  decide

theorem witness_AbsentDataFaults_rom :
    (let s := { edge 0 with cbr := 1, pm := [(0, 7)], device := { start.device with dmImpl := [] } }
     Instr.movlbHlRa.view.byteOperand = some .hl ∧ byteHazard .hl s = false ∧ pmRead s (farAddr .ra s) = some 7 ∧
       dmPresent s (indAddr .hl s) = false) := by
  decide

theorem witness_AbsentProgramFaults :
    Quiet start ∧ start.halted = false ∧ pmRead start start.pc = none ∧
    (let s := { start with pm := [(0x100, 0x0014)] }
     Quiet s ∧ pmRead s s.pc = some 0x0014 ∧ (∃ k, openWord 0x0014 = some (.more k)) ∧ pmRead s (s.pc + 1) = none) ∧
    Instr.movlbHlRa.view = .rom .lb .hl .ra ∧ byteHazard .hl start = false ∧ pmRead start (farAddr .ra start) = none :=
  ⟨.inl rfl, rfl, rfl, ⟨.inl rfl, rfl, ⟨_, rfl⟩, rfl⟩, rfl, rfl, rfl⟩

end Sys2Proof.Tests
end

section
/-! What the registers, flags and stacks of 10_state.md hold after reset, and which instructions write them. An
instruction has one of three shapes (`view_shape`): it works on one nibble of data memory, or it is an 8-bit transfer,
or neither. A lemma per shape says what it keeps of the control state, and one what it keeps of A, C, Z and G. -/

namespace Sys2Proof.Machine

/-! ## Reset -/

/-- A core that is not halted, with nothing stored since reset, meets the invariant as soon as its program memory is
canonical: a memory that lists nothing meets every condition on what it lists. -/
theorem inv_of_nothing_stored {s : State} (hram : s.ram = []) (hxm : s.xm = []) (hwf : Memory.wf s.pm = true)
    (hin : Memory.within 0 0x10000 s.pm = true) (hrun : s.halted = false) : Inv s where
  ramWf := by rw [hram]; rfl
  ramIn := by rw [hram]; rfl
  ramImplemented := by rw [hram]; rfl
  pmWf := hwf
  pmIn := hin
  xmWf := by rw [hxm]; rfl
  xmIn := by rw [hxm]; rfl
  xmStorage := by rw [hxm]; rfl
  haltAtNop := fun hhalt => absurd (hrun.symm.trans hhalt) Bool.false_ne_true

/-- Settles O7: the reset state lists nothing in any memory and is not halted. -/
theorem invAtReset : Obligations.InvAtReset := inv_of_nothing_stored rfl rfl rfl rfl rfl

/-- A core register is read at its address of Table 1-2 (20_memory.md R75). -/
theorem dmValue_addr (r : CoreReg) (s : State) : dmValue s r.addr = coreRegValue r s := by
  simp only [dmValue, locate_addr]

/-- The reserved bits of SPH and MIEF read 1, so that SP = 0 and MIE = 0 do not read 0 there (20_memory.md R76). -/
theorem dmValue_sp_mief_of_zero {s : State} (hsp : s.sp = 0) (hmie : s.mie = false) :
    dmValue s 0x0F7 = 0 ∧ dmValue s 0x0F8 = 0xE ∧ dmValue s 0x0FF = 0xE := by
  have hspl : dmValue s 0x0F7 = s.sp.extractLsb' 0 4 := dmValue_addr .spl s
  have hsph : dmValue s 0x0F8 = 7#3 ++ s.sp.extractLsb' 4 1 := dmValue_addr .sph s
  have hmief : dmValue s 0x0FF = 7#3 ++ BitVec.ofBool s.mie := dmValue_addr .mief s
  rw [hspl, hsph, hmief, hsp, hmie]
  decide

/-- A pair reads 00H when its registers are 0 (10_state.md R28). -/
theorem pairValue_of_zero {s : State} (hh : s.h = 0) (hl : s.l = 0) (hx : s.x = 0) (hy : s.y = 0) (p : Pair) :
    pairValue p s = 0 := by
  cases p with
  | hl => rw [pairValue, hh, hl]; rfl
  | xy => rw [pairValue, hx, hy]; rfl

/-- Settles O13: both states take these registers from `State.reset`; the pairs are read from H, L, X and Y, the last
three values from SP and MIE. -/
theorem resetValues : Obligations.ResetValues := by
  intro s t ht
  simp only [List.mem_cons, List.not_mem_nil, or_false] at ht
  obtain rfl | rfl := ht <;>
    exact ⟨rfl, rfl, rfl, rfl, rfl, rfl, rfl, rfl, rfl, rfl, rfl, rfl, rfl, rfl, rfl, rfl, rfl,
      pairValue_of_zero rfl rfl rfl rfl .hl, pairValue_of_zero rfl rfl rfl rfl .xy, dmValue_sp_mief_of_zero rfl rfl⟩

/-! ## The operand forms and G -/

/-- A form without post-increment has no pair to count up. -/
theorem postPair_eq_none {o : Obj} (h : objPost o = false) : postPair o = none := by
  cases o with
  | ind m => simp [postPair, show indPost m = false from h]
  | _ => rfl

theorem indClose_of_not_post {m : Ind} (h : indPost m = false) (k : Nat) (s : State) : indClose m k s = s := by
  simp [indClose, h]

/-- Of the 8-bit transfers, those of post-increment write G (10_state.md R25). -/
theorem writesG_of_byteOperand {v : View} {m : Ind} (hm : v.byteOperand = some m) : v.writesG = indPost m := by
  cases v <;> cases hm <;> rfl

/-! ## Which instructions write the control state -/

/-- An instruction on one nibble keeps the whole control state. -/
theorem sameControl_of_operand {v : View} {o : Obj} {s t : State} (ho : v.operand = some o)
    (ht : execView v s = .next t) : SameControl s t := by
  obtain ⟨reads, f, htemplate⟩ := template v o ho s
  obtain ⟨hready, x, -, -, -, rfl⟩ := template_next htemplate ht
  exact (dataEffect_apply o (f x) s _ reads hready rfl).control

/-- An 8-bit transfer keeps the whole control state, whether it loads a byte from program memory, loads one from
external memory, or stores one. -/
theorem sameControl_of_byteOperand {v : View} {m : Ind} {s t : State} (hm : v.byteOperand = some m)
    (ht : execView v s = .next t) : SameControl s t := by
  obtain ⟨-, -, ⟨n, b, u, rfl | ⟨x, rfl⟩, rfl⟩ | ⟨n, x, b, rfl⟩⟩ := byte_next hm ht
  all_goals refine ⟨⟨?_, ?_, ?_, ?_, ?_, ?_⟩, ⟨?_, ?_⟩, ?_, ?_, ?_⟩ <;> simp

/-- The control state that the rules of 10_state.md do not list the instruction to write is unchanged (R26, R32, R33,
R35, R38, R39). -/
structure KeepsControl (v : View) (s t : State) : Prop where
  calls : v.movesSp = false → t.sp = s.sp ∧ t.cstack = s.cstack
  returns : v ∈ [View.rt, .rti, .rtnmi] → t.cstack = s.cstack
  rstack : v.isPush = false → t.rstack = s.rstack
  mie : v.writesMie = false → t.mie = s.mie
  mieSaved : t.mieSaved = s.mieSaved
  halted : v ≠ .halt → t.halted = s.halted

theorem SameControl.keepsControl {s t : State} (h : SameControl s t) (v : View) : KeepsControl v s t where
  calls _ := ⟨h.calls.sp, h.calls.cstack⟩
  returns _ := h.calls.cstack
  rstack _ := h.rstack
  mie _ := h.mie
  mieSaved := h.world.mieSaved
  halted _ := h.halted

theorem PlainEffect.keepsControl {v : View} {s t : State} (h : PlainEffect v s t) : KeepsControl v s t where
  calls := h.calls
  returns := h.returns
  rstack := h.rstack
  mie := h.mie
  mieSaved := h.mieSaved
  halted hv := h.halted.resolve_right fun ⟨heq, _⟩ => hv heq

theorem execView_keepsControl {v : View} {s t : State} (ht : execView v s = .next t) : KeepsControl v s t := by
  obtain ⟨o, ho⟩ | ⟨m, hm⟩ | ⟨ho, hm⟩ := view_shape v
  · exact (sameControl_of_operand ho ht).keepsControl v
  · exact (sameControl_of_byteOperand hm ht).keepsControl v
  · exact (plain_next ho hm ht).keepsControl

/-- HALT has one spelling. -/
theorem eq_halt_of_view {i : Instr} (h : i.view = .halt) : i = .halt := by
  rw [← toInstr_view i, h]
  rfl

/-- Settles O11, by the three shapes of an instruction. -/
theorem controlStateWriters : Obligations.ControlStateWriters := by
  intro i s t ht
  rw [exec_eq_execView] at ht
  obtain ⟨calls, returns, rstack, mie, mieSaved, halted⟩ := execView_keepsControl ht
  exact ⟨calls, returns, rstack, mie, mieSaved, fun hi => halted fun hv => hi (eq_halt_of_view hv)⟩

/-! ## Which instructions write A, C, Z and G -/

/-- The accumulator and the flags that the rules of 10_state.md do not list the instruction to write are unchanged
(R21, R23, R24, R25). -/
structure KeepsFlags (v : View) (s t : State) : Prop where
  a : v.writesA = false → t.a = s.a
  c : v.writesC = false → t.c = s.c
  z : v.writesZ = false → t.z = s.z
  g : v.writesG = false → t.g = s.g

/-- A, C and Z are what the operation leaves, and it keeps those it does not write; G changes by post-increment
alone. -/
theorem keepsFlags_of_operand {v : View} {o : Obj} {s t : State} (ho : v.operand = some o)
    (ht : execView v s = .next t) : KeepsFlags v s t := by
  obtain ⟨reads, f, htemplate⟩ := template v o ho s
  obtain ⟨hready, x, hxa, hxz, hxc, rfl⟩ := template_next htemplate ht
  refine ⟨fun ha => ?_, fun hc => ?_, fun hz => ?_, fun hg => ?_⟩
  · rw [advance_a, objClose_a, applyOut_a, htemplate.a x ha, hxa]
  · rw [advance_c, objClose_c, applyOut_c, htemplate.c x hc, hxc]
  · rw [advance_z, objClose_z, applyOut_z, htemplate.z x hz, hxz]
  · exact (dataEffect_apply o (f x) s _ reads hready rfl).g (postPair_eq_none (htemplate.g.symm.trans hg))

/-- An 8-bit transfer keeps A, C and Z, and its close, where it is not one of post-increment, keeps G. -/
theorem keepsFlags_of_byteOperand {v : View} {m : Ind} {s t : State} (hm : v.byteOperand = some m)
    (ht : execView v s = .next t) : KeepsFlags v s t := by
  have hclose (hg : v.writesG = false) (u : State) : indClose m 2 u = u :=
    indClose_of_not_post ((writesG_of_byteOperand hm).symm.trans hg) 2 u
  obtain ⟨-, -, ⟨n, b, u, rfl | ⟨x, rfl⟩, rfl⟩ | ⟨n, x, b, rfl⟩⟩ := byte_next hm ht
  all_goals exact ⟨fun _ => by simp, fun _ => by simp, fun _ => by simp, fun hg => by simp [hclose hg]⟩

theorem PlainEffect.keepsFlags {v : View} {s t : State} (h : PlainEffect v s t) : KeepsFlags v s t :=
  ⟨h.a, h.c, h.z, h.g⟩

theorem execView_keepsFlags {v : View} {s t : State} (ht : execView v s = .next t) : KeepsFlags v s t := by
  obtain ⟨o, ho⟩ | ⟨m, hm⟩ | ⟨ho, hm⟩ := view_shape v
  · exact keepsFlags_of_operand ho ht
  · exact keepsFlags_of_byteOperand hm ht
  · exact (plain_next ho hm ht).keepsFlags

/-- Settles O12, by the three shapes of an instruction. -/
theorem flagWriters : Obligations.FlagWriters := by
  intro i s t ht
  rw [exec_eq_execView] at ht
  obtain ⟨a, c, z, g⟩ := execView_keepsFlags ht
  exact ⟨a, c, z, g⟩

end Sys2Proof.Machine
end

section
/-! The memories of 20_memory.md: what every step keeps of them, which address an operand form gives, what a write
leaves to read, and where an access is stopped. The step is followed operation by operation: `Keeps` says what each
named operation keeps, is transitive, and so carries over the three shapes of an instruction (`view_shape`) to a step. -/

namespace Sys2Proof.Machine

/-! ## What every operation keeps -/

/-- The conditions of the invariant on the two memories that instructions write (20_memory.md R78, R79). -/
structure StoredInside (s : State) : Prop where
  ramWf : Memory.wf s.ram = true
  ramIn : Memory.within 0x100 0x1000 s.ram = true
  ramImplemented : s.ram.all (fun e => s.device.dmImpl.any fun r => r.has e.1) = true
  xmWf : Memory.wf s.xm = true
  xmIn : Memory.within 0 0x10000 s.xm = true
  xmStorage : s.xm.all (fun e => s.device.xmStorage.any fun r => r.has e.1) = true

/-- What every operation of the machine keeps: program memory, the device, the older part of the record, and the
conditions on the memories that are written. -/
structure Keeps (s t : State) : Prop where
  pm : t.pm = s.pm
  device : t.device = s.device
  trace : s.trace <:+ t.trace
  stored : StoredInside s → StoredInside t

theorem Keeps.trans {s t u : State} (h₁ : Keeps s t) (h₂ : Keeps t u) : Keeps s u where
  pm := h₂.pm.trans h₁.pm
  device := h₂.device.trans h₁.device
  trace := h₁.trace.trans h₂.trace
  stored h := h₂.stored (h₁.stored h)

/-- An operation that writes no memory keeps what it lists. -/
theorem keeps_of_memories_eq {s t : State} (hpm : t.pm = s.pm) (hdevice : t.device = s.device) (hram : t.ram = s.ram)
    (hxm : t.xm = s.xm) (htrace : s.trace <:+ t.trace) : Keeps s t where
  pm := hpm
  device := hdevice
  trace := htrace
  stored := fun ⟨ramWf, ramIn, ramImplemented, xmWf, xmIn, xmStorage⟩ =>
    ⟨hram ▸ ramWf, hram ▸ ramIn, by rw [hram, hdevice]; exact ramImplemented,
      hxm ▸ xmWf, hxm ▸ xmIn, by rw [hxm, hdevice]; exact xmStorage⟩

theorem keeps_refl (s : State) : Keeps s s := keeps_of_memories_eq rfl rfl rfl rfl List.suffix_rfl

theorem keeps_advance (n : Nat) (s : State) : Keeps s (advance n s) :=
  keeps_of_memories_eq rfl rfl rfl rfl List.suffix_rfl

theorem keeps_indClose (m : Ind) (k : Nat) (s : State) : Keeps s (indClose m k s) :=
  keeps_of_memories_eq (by simp) (by simp) (by simp) (by simp) (by simp)

theorem keeps_objClose (o : Obj) (s : State) : Keeps s (objClose o s) :=
  keeps_of_memories_eq (by simp) (by simp) (by simp) (by simp) (by simp)

theorem keeps_afterDmRead (s : State) (a : DataAddr) : Keeps s (afterDmRead s a) := by
  refine keeps_of_memories_eq (by simp) (by simp) (by simp) (by simp) ?_
  rw [afterDmRead_trace]
  split
  · exact List.suffix_cons _ _
  · exact List.suffix_rfl

theorem keeps_afterXmRead (s : State) (a : Word) : Keeps s (afterXmRead s a) :=
  keeps_of_memories_eq rfl rfl rfl rfl (List.suffix_cons _ _)

/-- A store of data memory lists at most its own address, which is implemented data RAM then. -/
theorem keeps_dmStore {s : State} {a : DataAddr} (v : Nibble) (ha : dmPresent s a = true) :
    Keeps s (dmStore s a v) := by
  cases hplace : locate a with
  | peripheral =>
    simp only [dmStore, hplace]
    exact keeps_of_memories_eq rfl rfl rfl rfl (List.suffix_cons _ _)
  | core r =>
    simp only [dmStore, hplace]
    exact keeps_of_memories_eq (by simp) (by simp) (by simp) (by simp) (by simp)
  | ram =>
    have himpl : (s.device.dmImpl.any fun r => r.has a.toNat) = true := by simpa [dmPresent, hplace] using ha
    simp only [dmStore, hplace]
    exact ⟨rfl, rfl, List.suffix_rfl, fun h =>
      { h with
        ramWf := Memory.write_wf _ _ _ h.ramWf
        ramIn := Memory.write_within _ _ _ _ _ h.ramIn ((locate_eq_ram a).1 hplace) a.isLt
        ramImplemented :=
          Memory.write_all (fun n => s.device.dmImpl.any fun r => r.has n) _ _ _ h.ramImplemented himpl }⟩

/-- A store of external memory lists at most its own address, where that is plain storage. -/
theorem keeps_xmStore (s : State) (a : Word) (v : Byte) : Keeps s (xmStore s a v) := by
  cases hplace : xmIsStorage s a with
  | false =>
    exact keeps_of_memories_eq rfl rfl rfl (by simp [xmStore, hplace]) (List.suffix_cons _ _)
  | true =>
    simp only [xmStore, hplace, if_true]
    exact ⟨rfl, rfl, List.suffix_cons _ _, fun h =>
      { h with
        xmWf := Memory.write_wf _ _ _ h.xmWf
        xmIn := Memory.write_within _ _ _ _ _ h.xmIn (Nat.zero_le _) a.isLt
        xmStorage := Memory.write_all (fun n => s.device.xmStorage.any fun r => r.has n) _ _ _ h.xmStorage hplace }⟩

/-- The device alone says which addresses are implemented (20_memory.md R78). -/
theorem dmPresent_congr {s t : State} (h : t.device = s.device) (a : DataAddr) : dmPresent t a = dmPresent s a := by
  simp only [dmPresent, h]

theorem Keeps.dmPresent {s t : State} (h : Keeps s t) {a : DataAddr} (ha : dmPresent s a = true) :
    dmPresent t a = true :=
  (dmPresent_congr h.device a).trans ha

theorem keeps_dmLoadNibble {s : State} {a : DataAddr} (v : Nibble) (ha : dmPresent s a = true) :
    Keeps s (dmLoadNibble s a v) := by
  unfold dmLoadNibble
  split
  · have hdraw : Keeps s { s with draws := s.draws + 1 } := keeps_of_memories_eq rfl rfl rfl rfl List.suffix_rfl
    exact hdraw.trans (keeps_dmStore _ (hdraw.dmPresent ha))
  · exact keeps_dmStore v ha

theorem keeps_applyOut {s : State} {ea : DataAddr} (out : AluOut) (ha : dmPresent s ea = true) :
    Keeps s (applyOut ea out s) := by
  obtain ⟨store, a, z, c⟩ := out
  cases store with
  | none => exact keeps_of_memories_eq rfl rfl rfl rfl List.suffix_rfl
  | some v => exact (keeps_dmStore v ha).trans (keeps_of_memories_eq rfl rfl rfl rfl List.suffix_rfl)

/-! ## What every instruction keeps -/

theorem keeps_of_operand {v : View} {o : Obj} {s t : State} (ho : v.operand = some o) (ht : execView v s = .next t) :
    Keeps s t := by
  obtain ⟨reads, f, htemplate⟩ := template v o ho s
  obtain ⟨⟨-, hpresent⟩, x, -, -, -, rfl⟩ := template_next htemplate ht
  have hread : Keeps s (if reads then afterDmRead s (objAddr o s) else s) := by
    cases reads
    · exact keeps_refl s
    · exact keeps_afterDmRead s _
  exact ((hread.trans (keeps_applyOut (f x) (hread.dmPresent hpresent))).trans (keeps_objClose o _)).trans
    (keeps_advance 1 _)

theorem keeps_of_byteOperand {v : View} {m : Ind} {s t : State} (hm : v.byteOperand = some m)
    (ht : execView v s = .next t) : Keeps s t := by
  obtain ⟨hlow, hhigh, ⟨n, b, u, hu, rfl⟩ | ⟨n, x, b, rfl⟩⟩ := byte_next hm ht
  · have hread : Keeps s u := by
      obtain rfl | ⟨x, rfl⟩ := hu
      · exact keeps_refl u
      · exact keeps_afterXmRead s x
    have hfirst := hread.trans (keeps_dmLoadNibble (b.extractLsb' 0 4) (hread.dmPresent hlow))
    have hsecond := hfirst.trans (keeps_dmLoadNibble (b.extractLsb' 4 4) (hfirst.dmPresent hhigh))
    exact (hsecond.trans (keeps_indClose m 2 _)).trans (keeps_advance n _)
  · have hread := (keeps_afterDmRead s (indAddr m s)).trans (keeps_afterDmRead _ (indAddr1 m s))
    exact ((hread.trans (keeps_xmStore _ x b)).trans (keeps_indClose m 2 _)).trans (keeps_advance n _)

theorem PlainEffect.keeps {v : View} {s t : State} (h : PlainEffect v s t) : Keeps s t :=
  keeps_of_memories_eq h.pm h.device h.ram h.xm (h.trace.imp fun _ heq => heq.symm)

theorem keeps_of_execView {v : View} {s t : State} (ht : execView v s = .next t) : Keeps s t := by
  obtain ⟨o, ho⟩ | ⟨m, hm⟩ | ⟨ho, hm⟩ := view_shape v
  · exact keeps_of_operand ho ht
  · exact keeps_of_byteOperand hm ht
  · exact (plain_next ho hm ht).keeps

theorem keeps_of_exec {i : Instr} {s t : State} (ht : exec i s = .next t) : Keeps s t := by
  rw [exec_eq_execView] at ht
  exact keeps_of_execView ht

/-! ## What every step keeps -/

theorem keeps_of_execute {s t : State} (ht : execute s = .next t) : Keeps s t := by
  obtain ⟨v, u, -, hu, rfl⟩ := execute_eq_next ht
  exact (keeps_of_exec hu).trans (keeps_of_memories_eq rfl rfl rfl rfl List.suffix_rfl)

theorem keeps_wakeUp (e : Stimulus) (s : State) : Keeps s (wakeUp e s) := by
  unfold wakeUp
  split
  · exact keeps_of_memories_eq rfl rfl rfl rfl List.suffix_rfl
  · exact keeps_refl s

/-- A system reset empties data RAM and external memory, and keeps the rest (log 12). -/
theorem keeps_systemReset (s : State) : Keeps s (systemReset s) :=
  ⟨rfl, rfl, List.suffix_rfl, fun _ => ⟨rfl, rfl, rfl, rfl, rfl, rfl⟩⟩

theorem keeps_of_stepUnder {e : Stimulus} {s t : State} (ht : stepUnder e s = .next t) : Keeps s t := by
  obtain ⟨-, rfl⟩ | ⟨-, -, rfl⟩ | ⟨-, -, hrun⟩ := stepUnder_cases ht
  · exact keeps_systemReset s
  · exact keeps_wakeUp e s
  · refine (keeps_wakeUp e s).trans ?_
    obtain ⟨v, -, rfl⟩ | ⟨v, -, -, -, rfl⟩ | ⟨-, -, hexec⟩ := hrun
    · exact keeps_of_memories_eq rfl rfl rfl rfl List.suffix_rfl
    · exact keeps_of_memories_eq rfl rfl rfl rfl List.suffix_rfl
    · exact keeps_of_execute hexec

/-- A step is one boundary under the head of the schedule, or under nothing presented. -/
theorem step_eq_stepUnder (s : State) :
    step s = stepUnder (s.env.headD .quiet) { s with env := s.env.tail } := by
  cases henv : s.env with
  | nil =>
    have hsame : ({ s with env := [] } : State) = s := by rw [← henv]
    rw [step_nil henv, List.headD_nil, List.tail_nil, hsame]
  | cons e rest => rw [step_cons henv, List.headD_cons, List.tail_cons]

theorem keeps_of_step {s t : State} (ht : step s = .next t) : Keeps s t := by
  rw [step_eq_stepUnder] at ht
  have hschedule : Keeps s { s with env := s.env.tail } := keeps_of_memories_eq rfl rfl rfl rfl List.suffix_rfl
  exact hschedule.trans (keeps_of_stepUnder ht)

/-- Settles O9: `Keeps` for steps and instructions, `fetch_congr` for the fetch. -/
theorem programMemoryConstant : Obligations.ProgramMemoryConstant :=
  ⟨fun _ _ ht => ⟨(keeps_of_step ht).pm, (keeps_of_step ht).device⟩, fun _ _ _ ht => (keeps_of_exec ht).pm,
    fun _ _ hpc hpm => fetch_congr hpc hpm⟩

/-- Settles O10: the older record is a suffix of the record after the step. -/
theorem traceOnlyGrows : Obligations.TraceOnlyGrows := by
  intro s t ht
  obtain ⟨new, hnew⟩ := (keeps_of_step ht).trace
  exact ⟨new, hnew.symm⟩

/-! ## A halted core stands at a NOP -/

/-- The last condition of the invariant (48_control.md R461). -/
def HaltedAtNop (s : State) : Prop := s.halted = true → pmRead s s.pc = some 0

theorem haltedAtNop_of_running {s : State} (h : s.halted = false) : HaltedAtNop s :=
  fun hhalt => absurd (h.symm.trans hhalt) Bool.false_ne_true

/-- Of the instructions a running core executes, HALT alone halts it, and HALT looks at the word it then stands at. -/
theorem haltedAtNop_of_execView {v : View} {s t : State} (hrun : s.halted = false) (ht : execView v s = .next t) :
    HaltedAtNop t := by
  by_cases hv : v = .halt
  · subst hv
    have heffect := plain_next rfl rfl ht
    obtain hsame | ⟨-, -, hpc, hnop⟩ := heffect.halted
    · exact haltedAtNop_of_running (hsame.trans hrun)
    · intro _
      rw [pmRead, heffect.pm, hpc]
      exact hnop
  · exact haltedAtNop_of_running (((execView_keepsControl ht).halted hv).trans hrun)

theorem haltedAtNop_of_execute {s t : State} (hrun : s.halted = false) (ht : execute s = .next t) :
    HaltedAtNop t := by
  obtain ⟨v, u, -, hu, rfl⟩ := execute_eq_next ht
  rw [exec_eq_execView] at hu
  have hnop : HaltedAtNop u := haltedAtNop_of_execView hrun hu
  exact hnop

/-- Waking takes a core out of halt mode or leaves it as it is. -/
theorem HaltedAtNop.wakeUp {s : State} (h : HaltedAtNop s) (e : Stimulus) : HaltedAtNop (wakeUp e s) := by
  unfold Machine.wakeUp
  split
  · exact haltedAtNop_of_running rfl
  · exact h

theorem HaltedAtNop.stepUnder {e : Stimulus} {s t : State} (h : HaltedAtNop s) (ht : stepUnder e s = .next t) :
    HaltedAtNop t := by
  obtain ⟨-, rfl⟩ | ⟨-, -, rfl⟩ | ⟨-, hrun, hboundary⟩ := stepUnder_cases ht
  · exact haltedAtNop_of_running rfl
  · exact h.wakeUp e
  · obtain ⟨v, -, rfl⟩ | ⟨v, -, -, -, rfl⟩ | ⟨-, -, hexec⟩ := hboundary
    · exact haltedAtNop_of_running hrun
    · exact haltedAtNop_of_running hrun
    · exact haltedAtNop_of_execute hrun hexec

theorem HaltedAtNop.step {s t : State} (h : HaltedAtNop s) (ht : step s = .next t) : HaltedAtNop t := by
  rw [step_eq_stepUnder] at ht
  have hschedule : HaltedAtNop { s with env := s.env.tail } := h
  exact hschedule.stepUnder ht

/-- The invariant in its three parts: program memory, the memories that are written, halt mode. -/
theorem inv_iff (s : State) :
    Inv s ↔ (Memory.wf s.pm = true ∧ Memory.within 0 0x10000 s.pm = true) ∧ StoredInside s ∧ HaltedAtNop s :=
  ⟨fun h => ⟨⟨h.pmWf, h.pmIn⟩, { h with }, h.haltAtNop⟩,
    fun ⟨⟨pmWf, pmIn⟩, hstored, haltAtNop⟩ => { hstored with pmWf, pmIn, haltAtNop }⟩

/-- Settles O8: a step leaves program memory alone, keeps the conditions on the memories it writes, and halts at a NOP
alone. -/
theorem invKept : Obligations.InvKept := by
  intro s t hinv ht
  obtain ⟨hpm, hstored, hhalt⟩ := (inv_iff s).1 hinv
  have hkeeps := keeps_of_step ht
  rw [inv_iff, hkeeps.pm]
  exact ⟨hpm, hkeeps.stored hstored, hhalt.step ht⟩

/-! ## The address of an operand -/

/-- A bank register and an offset as a number (20_memory.md R74). -/
theorem bankOffset_toNat (b : Nibble) (r : Byte) : (b ++ r).toNat = 256 * b.toNat + r.toNat :=
  (append_toNat b r).trans (by omega)

/-- The forms through HL, with either bank: H is the high nibble (D1). -/
theorem objAddr_toNat_of_hl {m : Ind} (hm : indPair m = .hl) (s : State) :
    (objAddr (.ind m) s).toNat = 256 * (bankValue (indBank m) s).toNat + 16 * s.h.toNat + s.l.toNat := by
  have hpair : (pairValue .hl s).toNat = 16 * s.h.toNat + s.l.toNat := pairValue_toNat .hl s
  rw [objAddr, indAddr_toNat, hm, hpair, ← Nat.add_assoc]

/-- The forms through XY, with either bank: X is the high nibble (D1). -/
theorem objAddr_toNat_of_xy {m : Ind} (hm : indPair m = .xy) (s : State) :
    (objAddr (.ind m) s).toNat = 256 * (bankValue (indBank m) s).toNat + 16 * s.x.toNat + s.y.toNat := by
  have hpair : (pairValue .xy s).toNat = 16 * s.x.toNat + s.y.toNat := pairValue_toNat .xy s
  rw [objAddr, indAddr_toNat, hm, hpair, ← Nat.add_assoc]

/-- The address after that of an indirect form, in the whole data memory. -/
theorem indAddr_succ_toNat (m : Ind) (s : State) :
    (indAddr m s + 1).toNat =
      (256 * (bankValue (indBank m) s).toNat + (pairValue (indPair m) s).toNat + 1) % 4096 := by
  rw [BitVec.toNat_add, indAddr_toNat]
  rfl

/-- "obj+1" below the end of a bank. -/
theorem indAddr1_toNat_of_pair_ne {m : Ind} {s : State} (h : pairValue (indPair m) s ≠ 255) :
    (indAddr1 m s).toNat = (indAddr m s).toNat + 1 := by
  have hlt : (pairValue (indPair m) s).toNat < 255 := by bv_omega
  have hbank := (bankValue (indBank m) s).isLt
  rw [indAddr1, if_neg fun hc => h hc.1, indAddr_succ_toNat, indAddr_toNat]
  omega

/-- "obj+1" at the end of a bank that is kept. -/
theorem indAddr1_toNat_sameBank {m : Ind} {s : State} (h : pairValue (indPair m) s = 255)
    (hcarry : s.device.obj1Carry = .sameBank) :
    (indAddr1 m s).toNat = 256 * (bankValue (indBank m) s).toNat := by
  rw [indAddr1, if_pos ⟨h, hcarry⟩, bankOffset_toNat]
  rfl

/-- "obj+1" at the end of a bank that counts up, bank 0 coming after bank 15 (log 14). -/
theorem indAddr1_toNat_nextBank {m : Ind} {s : State} (h : pairValue (indPair m) s = 255)
    (hcarry : s.device.obj1Carry = .nextBank) :
    (indAddr1 m s).toNat = 256 * (((bankValue (indBank m) s).toNat + 1) % 16) := by
  have hpair : (pairValue (indPair m) s).toNat = 255 := congrArg BitVec.toNat h
  rw [indAddr1, if_neg (by simp [hcarry]), indAddr_succ_toNat, hpair]
  omega

/-- Settles O20, form by form. -/
theorem operandAddresses : Obligations.OperandAddresses := by
  intro s a r m
  refine ⟨rfl, ?_, bankOffset_toNat s.cbr r, ?_, ?_, ?_, ?_, indAddr1_toNat_of_pair_ne, indAddr1_toNat_sameBank,
    indAddr1_toNat_nextBank⟩
  · exact (bankOffset_toNat 0 r).trans (Nat.zero_add _)
  all_goals
    intro m hm
    simp only [List.mem_cons, List.not_mem_nil, or_false] at hm
  · obtain rfl | rfl := hm <;> exact objAddr_toNat_of_hl rfl s
  · obtain rfl | rfl := hm <;> exact objAddr_toNat_of_xy rfl s
  · obtain rfl | rfl := hm <;> exact objAddr_toNat_of_hl rfl s
  · obtain rfl | rfl := hm <;> exact objAddr_toNat_of_xy rfl s

/-! ## What data memory reads as after a write -/

/-- The core registers that take no write, by their addresses (20_memory.md R76; D6). -/
theorem writable_iff_addr (r : CoreReg) :
    r.writable = true ↔ r.addr.toNat ≠ 0xF7 ∧ r.addr.toNat ≠ 0xF8 ∧ r.addr.toNat ≠ 0xFF := by
  cases r <;> decide

/-- Settles O21: a core register is read at its own address alone (`coreRegValue_dmStore`), and so is data RAM
(`ramValue_dmStore`). -/
theorem dataMemoryReadsAfterWrite : Obligations.DataMemoryReadsAfterWrite := by
  intro s a b v hb
  cases hplace : locate b with
  | peripheral => exact absurd ((locate_eq_peripheral b).1 hplace) (by omega)
  | core r =>
    obtain rfl := (locate_eq_core b r).1 hplace
    rw [dmValue_addr, dmValue_addr, coreRegValue_dmStore]
    exact if_congr (and_congr ((locate_eq_core a r).trans eq_comm) (writable_iff_addr r)) rfl rfl
  | ram =>
    have hram := (locate_eq_ram b).1 hplace
    simp only [dmValue, hplace, ramValue_dmStore]
    refine if_congr ⟨?_, ?_⟩ rfl rfl
    · rintro ⟨-, rfl⟩
      exact ⟨rfl, by omega, by omega, by omega⟩
    · rintro ⟨rfl, -⟩
      exact ⟨hplace, rfl⟩

/-! ## Where an access to data memory stops -/

theorem isPairOrBank_of_range {a : DataAddr} (hlo : 0xF9 ≤ a.toNat) (hhi : a.toNat ≤ 0xFE) : isPairOrBank a = true :=
  decide_eq_true ⟨hlo, hhi⟩

/-- Only a data RAM address can be absent, so an absent address is no pair or bank register. -/
theorem not_isPairOrBank_of_absent {s : State} {a : DataAddr} (h : dmPresent s a = false) : isPairOrBank a = false := by
  cases hplace : locate a with
  | ram =>
    have hram := (locate_eq_ram a).1 hplace
    exact decide_eq_false (by omega)
  | _ => simp [dmPresent, hplace] at h

theorem withObj_hazard {o : Obj} {s : State} (hpost : objPost o = true) (h : isPairOrBank (objAddr o s) = true)
    (k : DataAddr → State) : withObj o s k = .refused .postincThroughPairOrBank := by
  simp [withObj, hpost, h]

theorem withObj_absent {o : Obj} {s : State} (h : dmPresent s (objAddr o s) = false) (k : DataAddr → State) :
    withObj o s k = .fault .dataAddressNotImplemented := by
  simp [withObj, h, not_isPairOrBank_of_absent h]

/-- An instruction on one nibble opens its operand first, once the core provides it. -/
theorem Template.eq_withObj {v : View} {o : Obj} {s : State} {reads : Bool} {f : AluIn → AluOut}
    (h : Template v o s reads f) (hcore : v.only300 = true → s.device.core = .nx300) :
    ∃ k, execView v s = withObj o s k := by
  have hopen : ∃ k, (if reads then onRead o f s else onStore o f s) = withObj o s k := by
    cases reads
    · exact ⟨_, by rw [if_neg Bool.false_ne_true, onStore]⟩
    · exact ⟨_, by rw [if_pos rfl, onRead]⟩
  obtain ⟨-, heq⟩ | ⟨h300, -, heq⟩ := h.eq
  · rwa [heq]
  · rwa [heq, only300, hcore h300]

/-- No instruction of the nX-4/300 alone has a post-increment form. -/
theorem Template.not_only300 {v : View} {o : Obj} {s : State} {reads : Bool} {f : AluIn → AluOut}
    (h : Template v o s reads f) (hpost : objPost o = true) : v.only300 = false := by
  obtain ⟨h300, -⟩ | ⟨-, hnot, -⟩ := h.eq
  · exact h300
  · exact absurd (hnot.symm.trans hpost) Bool.false_ne_true

theorem execView_operand_hazard {v : View} {o : Obj} {s : State} (ho : v.operand = some o) (hpost : objPost o = true)
    (h : isPairOrBank (objAddr o s) = true) : execView v s = .refused .postincThroughPairOrBank := by
  obtain ⟨reads, f, htemplate⟩ := template v o ho s
  have h300 := htemplate.not_only300 hpost
  obtain ⟨k, hk⟩ := htemplate.eq_withObj fun hc => absurd (h300.symm.trans hc) Bool.false_ne_true
  rw [hk, withObj_hazard hpost h]

theorem execView_operand_absent {v : View} {o : Obj} {s : State} (ho : v.operand = some o)
    (hcore : v.only300 = true → s.device.core = .nx300) (h : dmPresent s (objAddr o s) = false) :
    execView v s = .fault .dataAddressNotImplemented := by
  obtain ⟨reads, f, htemplate⟩ := template v o ho s
  obtain ⟨k, hk⟩ := htemplate.eq_withObj hcore
  rw [hk, withObj_absent h]

theorem core_of_providedOn {i : Instr} {c : CoreKind} (h : i.providedOn c = true) (h300 : i.view.only300 = true) :
    c = .nx300 := by
  simpa [Instr.providedOn, h300] using h

/-- A pair or bank register that a post-increment form addresses with either nibble stops an 8-bit transfer. -/
theorem byteHazard_of_isPairOrBank {m : Ind} {s : State} {a : DataAddr} (hpost : indPost m = true)
    (ha : a = indAddr m s ∨ a = indAddr1 m s) (h : isPairOrBank a = true) : byteHazard m s = true := by
  obtain rfl | rfl := ha <;> simp [byteHazard, hpost, h]

/-- An 8-bit transfer looks for the hazard before anything else. -/
theorem execView_byte_hazard {v : View} {m : Ind} {s : State} (hm : v.byteOperand = some m)
    (h : byteHazard m s = true) : execView v s = .refused .postincThroughPairOrBank := by
  cases v <;> cases hm
  case rom half far => simp [execView, runRom, h]
  case xmLoad far => simp [execView, runXmLoad, h]
  case xmStore far => simp [execView, runXmStore, h]

theorem loadByte_absent {m : Ind} {s : State} (h : (dmPresent s (indAddr m s) && dmPresent s (indAddr1 m s)) = false)
    (n : Nat) (b : Byte) (u : State) : loadByte m n s b u = .fault .dataAddressNotImplemented := by
  simp [loadByte, h]

/-- MOVHB and MOVLB take their word of program memory before they look at data memory. -/
theorem runRom_of_word {half : Half} {m : Ind} {f : FarAddr} {s : State} {w : Word} (hz : byteHazard m s = false)
    (hw : pmRead s (farAddr f s) = some w) : runRom half m f s = loadByte m f.words s (romByte half w) s := by
  simp [runRom, hz, hw]

theorem runRom_absent_word {half : Half} {m : Ind} {f : FarAddr} {s : State} (hz : byteHazard m s = false)
    (hw : pmRead s (farAddr f s) = none) : runRom half m f s = .fault .programAddressNotImplemented := by
  simp [runRom, hz, hw]

theorem execView_byte_absent {v : View} {m : Ind} {s : State} (hm : v.byteOperand = some m)
    (hz : byteHazard m s = false) (hword : ∀ half f, v = .rom half m f → pmRead s (farAddr f s) ≠ none)
    (h : (dmPresent s (indAddr m s) && dmPresent s (indAddr1 m s)) = false) :
    execView v s = .fault .dataAddressNotImplemented := by
  cases v <;> cases hm
  case rom half far =>
    obtain ⟨w, hw⟩ := Option.ne_none_iff_exists'.1 (hword half far rfl)
    exact (runRom_of_word hz hw).trans (loadByte_absent h _ _ _)
  case xmLoad far => simpa [execView, runXmLoad, hz] using loadByte_absent h _ _ _
  case xmStore far => simp [execView, runXmStore, hz, h]

/-- Settles O56: on one nibble the hazard stops the opening of the operand, in an 8-bit transfer the instruction. -/
theorem postIncrementHazardRefused : Obligations.PostIncrementHazardRefused := by
  intro i s
  rw [exec_eq_execView]
  refine ⟨fun o ho hpost hlo hhi => ?_, fun m a hm hpost ha hlo hhi => ?_⟩
  · exact execView_operand_hazard ho hpost (isPairOrBank_of_range hlo hhi)
  · exact execView_byte_hazard hm (byteHazard_of_isPairOrBank hpost ha (isPairOrBank_of_range hlo hhi))

/-- Settles O58: no absent address is a hazard, so the check of the address is the one that stops the instruction. -/
theorem absentDataFaults : Obligations.AbsentDataFaults := by
  intro i s
  rw [exec_eq_execView]
  refine ⟨fun o ho hprovided habsent => ?_, fun m hm hz hword habsent => ?_⟩
  · exact execView_operand_absent ho (core_of_providedOn hprovided) habsent
  · exact execView_byte_absent hm hz (fun half f => hword half f) (Bool.and_eq_false_iff.2 habsent)

/-! ## Where an access to program memory stops -/

theorem headD_of_quiet {s : State} (hq : Quiet s) : s.env.headD .quiet = .quiet := by
  obtain henv | ⟨rest, henv⟩ := hq <;> rw [henv]
  · rw [List.headD_nil]
  · rw [List.headD_cons]

theorem stepUnder_quiet {s : State} (hrun : s.halted = false) : stepUnder .quiet s = execute s := by
  have hreset : Stimulus.quiet.reset = false := rfl
  have hwake : wakeUp .quiet s = s := rfl
  have hboundary : boundary .quiet s = execute s := rfl
  simp only [stepUnder, hreset, hwake, hrun, hboundary, Bool.false_eq_true, if_false]

/-- With nothing presented, a core that is not halted executes the instruction at `pc`. -/
theorem step_of_quiet {s : State} (hq : Quiet s) (hrun : s.halted = false) :
    step s = execute { s with env := s.env.tail } := by
  have hrest : ({ s with env := s.env.tail } : State).halted = false := hrun
  rw [step_eq_stepUnder, headD_of_quiet hq, stepUnder_quiet hrest]

theorem fetch_absent_first {s : State} (h : pmRead s s.pc = none) : fetch s = .absent := by
  simp [fetch, h]

theorem fetch_absent_second {s : State} {w : Word} {k : Word → View} (hw : pmRead s s.pc = some w)
    (hopen : openWord w = some (.more k)) (h : pmRead s (s.pc + 1) = none) : fetch s = .absent := by
  simp only [fetch, hw, hopen, h]

theorem step_of_fetch_absent {s : State} (hq : Quiet s) (hrun : s.halted = false) (h : fetch s = .absent) :
    step s = .fault .programAddressNotImplemented := by
  have hfetch : fetch { s with env := s.env.tail } = .absent := (fetch_congr rfl rfl).trans h
  rw [step_of_quiet hq hrun, execute, hfetch]

/-- Settles O59: the first two parts by the fetch, which is `absent` then; the third by MOVHB and MOVLB themselves. -/
theorem absentProgramFaults : Obligations.AbsentProgramFaults := by
  intro s
  refine ⟨fun hq hrun hfirst => ?_, fun w k hq hrun hw hopen hsecond => ?_, fun i half m f hview hz habsent => ?_⟩
  · exact step_of_fetch_absent hq hrun (fetch_absent_first hfirst)
  · exact step_of_fetch_absent hq hrun (fetch_absent_second hw hopen hsecond)
  · rw [exec_of_view hview]
    exact runRom_absent_word hz habsent

end Sys2Proof.Machine
end

section
/-! The words of 30_encoding.md. `WordFormat` lists the formats of R122 to R131 and the words of none, and every word is
one of them (`wordFormat`). One lemma per format says what the decoder opens a word of it as. Both directions between
the decoder and the encoder, and the list of unassigned words, are read from these lemmas. -/

namespace Sys2Proof

open Sys2Proof.Machine

/-! ## The extended space below 0800H -/

/-- A word whose bits 15 to 11 are 0: bits 10 to 8, bits 7 and 6, bit 5, bit 4 and the last digit (30_encoding.md
R138). -/
def wordExt (h : BitVec 3) (tt : BitVec 2) (b x : Bool) (f : Nibble) : Word :=
  0#5 ++ h ++ tt ++ bitField b ++ bitField x ++ f

@[simp] theorem bitField_toNat (b : Bool) : (bitField b).toNat = b.toNat := BitVec.toNat_ofBool b

theorem wordExt_toNat (h : BitVec 3) (tt : BitVec 2) (b x : Bool) (f : Nibble) :
    (wordExt h tt b x f).toNat = 256 * h.toNat + 64 * tt.toNat + 32 * b.toNat + 16 * x.toNat + f.toNat := by
  simp only [wordExt, append_toNat, bitField_toNat, BitVec.toNat_ofNat]
  omega

/-- A bit of a word as a number. -/
theorem getLsbD_eq_decide {n : Nat} (w : BitVec n) (i : Nat) : w.getLsbD i = decide (w.toNat / 2 ^ i % 2 = 1) := by
  rw [BitVec.getLsbD, Nat.testBit_eq_decide_div_mod_eq]

/-- What each field that the decoder looks at in the extended space holds (30_encoding.md R138, R153), in terms of the
parts of `wordExt`. -/
structure ExtFields (w : Word) (h : BitVec 3) (tt : BitVec 2) (b x : Bool) (f : Nibble) : Prop where
  digit : w.extractLsb' 12 4 = 0
  bit11 : w.getLsbD 11 = false
  bits10to9 : w.extractLsb' 9 2 = h.extractLsb' 1 2
  bits10to8 : w.extractLsb' 8 3 = h
  bit8 : w.getLsbD 8 = h.getLsbD 0
  bits7to6 : w.extractLsb' 6 2 = tt
  bits7to4 : w.extractLsb' 4 4 = tt ++ bitField b ++ bitField x
  bits5to4 : w.extractLsb' 4 2 = bitField b ++ bitField x
  bit5 : w.getLsbD 5 = b
  bit4 : w.getLsbD 4 = x
  low5 : w.extractLsb' 0 5 = bitField x ++ f
  low4 : w.extractLsb' 0 4 = f
  bit3 : w.getLsbD 3 = f.getLsbD 3
  low3 : w.extractLsb' 0 3 = f.extractLsb' 0 3
  bits2to1 : w.extractLsb' 1 2 = f.extractLsb' 1 2
  bit0 : w.getLsbD 0 = f.getLsbD 0

theorem wordExt_fields (h : BitVec 3) (tt : BitVec 2) (b x : Bool) (f : Nibble) :
    ExtFields (wordExt h tt b x f) h tt b x f := by
  have hb := b.toNat_le
  have hx := x.toNat_le
  have hbit (c : Bool) : decide (c.toNat = 1) = c := by cases c <;> rfl
  constructor
  case bit11 =>
    rw [getLsbD_eq_decide, wordExt_toNat]
    exact decide_eq_false (by omega)
  case bit5 =>
    rw [getLsbD_eq_decide, wordExt_toNat]
    exact (decide_eq_decide.2 (by omega)).trans (hbit b)
  case bit4 =>
    rw [getLsbD_eq_decide, wordExt_toNat]
    exact (decide_eq_decide.2 (by omega)).trans (hbit x)
  case bit8 | bit3 | bit0 =>
    rw [getLsbD_eq_decide, wordExt_toNat, getLsbD_eq_decide]
    exact decide_eq_decide.2 (by omega)
  all_goals
    apply BitVec.eq_of_toNat_eq
    simp only [extract_toNat, wordExt_toNat, append_toNat, bitField_toNat, BitVec.ofNat_eq_ofNat, BitVec.toNat_ofNat]
    omega

/-! ## The formats as words of the extended space -/

theorem wordInd_eq (g : BitVec 3) (m : Ind) (o : BitVec 3) :
    wordInd g m o = wordExt g 0 m.bitB m.bitX (bitField m.bitP ++ o) := by
  apply BitVec.eq_of_toNat_eq
  simp only [wordInd, wordExt_toNat, append_toNat, bitField_toNat, BitVec.ofNat_eq_ofNat, BitVec.toNat_ofNat]
  omega

theorem wordIndImm_eq (gg tt : BitVec 2) (m : Ind) (f : Nibble) :
    wordIndImm gg tt m f = wordExt (gg ++ bitField m.bitP) tt m.bitB m.bitX f := by
  apply BitVec.eq_of_toNat_eq
  simp only [wordIndImm, wordExt_toNat, append_toNat, bitField_toNat, BitVec.toNat_ofNat]
  omega

theorem wordMmov_eq (n : Fin 4) (m : IndFixed) (f : Nibble) :
    wordMmov n m f = wordExt ((BitVec.ofFin n : BitVec 2) ++ 0#1) 3 m.toInd.bitB m.toInd.bitX f := by
  apply BitVec.eq_of_toNat_eq
  simp only [wordMmov, wordExt_toNat, append_toNat, bitField_toNat, BitVec.ofNat_eq_ofNat, BitVec.toNat_ofNat]
  omega

theorem wordXm_eq (m : Ind) (d : Bool) :
    wordXm m d = wordExt 3 3 m.bitB m.bitX (bitField m.bitP ++ 0#2 ++ bitField d) := by
  apply BitVec.eq_of_toNat_eq
  simp only [wordXm, wordExt_toNat, append_toNat, bitField_toNat, BitVec.ofNat_eq_ofNat, BitVec.toNat_ofNat]
  omega

/-! ## The mode bits -/

/-- The mode bits of an operand form give the form again (30_encoding.md R136). -/
theorem ofModeBits_bits (m : Ind) : Ind.ofModeBits m.bitB m.bitX m.bitP = m := by
  cases m <;> rfl

theorem fixed_ofModeBits_bits (m : IndFixed) : IndFixed.ofModeBits m.toInd.bitB m.toInd.bitX = m := by
  cases m <;> rfl

/-- All mode bits are those of an operand form. -/
theorem exists_ind_bits (b x p : Bool) : ∃ m : Ind, m.bitB = b ∧ m.bitX = x ∧ m.bitP = p :=
  ⟨Ind.ofModeBits b x p, by cases b <;> cases x <;> cases p <;> exact ⟨rfl, rfl, rfl⟩⟩

theorem exists_fixed_bits (b x : Bool) : ∃ m : IndFixed, m.toInd.bitB = b ∧ m.toInd.bitX = x :=
  ⟨IndFixed.ofModeBits b x, by cases b <;> cases x <;> exact ⟨rfl, rfl⟩⟩

/-! ## What the decoder opens a word of each format as -/

theorem openWord_wordExt (h : BitVec 3) (tt : BitVec 2) (b x : Bool) (f : Nibble) :
    openWord (wordExt h tt b x f) = openExtended (wordExt h tt b x f) := by
  simp only [openWord, (wordExt_fields h tt b x f).digit]
  rfl

theorem openWord_wordExt_00 (h : BitVec 3) (b x : Bool) (f : Nibble) :
    openWord (wordExt h 0 b x f) = openExt00 (wordExt h 0 b x f) := by
  have hw := wordExt_fields h 0 b x f
  rw [openWord_wordExt]
  simp only [openExtended, hw.bit11, hw.bits7to6]
  rfl

theorem openWord_wordExt_11 (h : BitVec 3) (b x : Bool) (f : Nibble) :
    openWord (wordExt h 3 b x f) = openExt11 (wordExt h 3 b x f) := by
  have hw := wordExt_fields h 3 b x f
  rw [openWord_wordExt]
  simp only [openExtended, hw.bit11, hw.bits7to6]
  rfl

/-- The fixed codes (30_encoding.md R143). -/
theorem openWord_fixed (x : Bool) (f : Nibble) :
    openWord (wordExt 0 0 false x f) = openFixed (bitField x ++ f).toNat := by
  have hw := wordExt_fields 0 0 false x f
  rw [openWord_wordExt_00]
  simp only [openExt00, hw.bits10to8, hw.bits7to4, hw.low5]
  cases x <;> rfl

/-- F-REGI without MOV A, #i4 (30_encoding.md R144). -/
theorem openWord_reg {h : BitVec 3} {b : Bool} (x : Bool) (i : Nibble) (hh : h = 0 ∧ b = true ∨ h = 1 ∨ h = 2) :
    openWord (wordExt h 0 b x i) = openReg h.toNat (0#2 ++ bitField b ++ bitField x).toNat i := by
  have hw := wordExt_fields h 0 b x i
  rw [openWord_wordExt_00]
  simp only [openExt00, hw.bits10to8, hw.bits7to4, hw.low4]
  obtain ⟨rfl, rfl⟩ | rfl | rfl := hh
  · cases x <;> rfl
  · rfl
  · rfl

/-- MOV A, #i4 (30_encoding.md R144). -/
theorem openWord_movAImm (i : Nibble) : openWord (wordExt 1 3 false false i) = some (.whole (.movAImm i)) := by
  have hw := wordExt_fields 1 3 false false i
  rw [openWord_wordExt_11]
  simp only [openExt11, hw.bit8, hw.bits10to8, hw.bits5to4, hw.low4]
  rfl

/-- F-IND (30_encoding.md R140). -/
theorem openWord_wordInd {g : BitVec 3} (m : Ind) (o : BitVec 3) (hg : g = 3 ∨ g = 4 ∨ g = 5) :
    openWord (wordInd g m o) = openInd g.toNat o.toNat m := by
  have hw := wordExt_fields g 0 m.bitB m.bitX (bitField m.bitP ++ o)
  have hlow (p : Bool) (o : BitVec 3) : (bitField p ++ o).getLsbD 3 = p ∧ (bitField p ++ o).extractLsb' 0 3 = o := by
    revert p o
    decide
  rw [wordInd_eq, openWord_wordExt_00]
  simp only [openExt00, hw.bits10to8, hw.bit5, hw.bit4, hw.bit3, hw.low3, hlow, ofModeBits_bits]
  obtain rfl | rfl | rfl := hg <;> rfl

/-- F-INDI (30_encoding.md R141). -/
theorem openWord_wordIndImm (gg : BitVec 2) {tt : BitVec 2} (m : Ind) (i : Nibble) (htt : tt = 1 ∨ tt = 2) :
    openWord (wordIndImm gg tt m i) = openIndImm gg.toNat tt.toNat m i := by
  have hw := wordExt_fields (gg ++ bitField m.bitP) tt m.bitB m.bitX i
  have hhigh (gg : BitVec 2) (p : Bool) :
      (gg ++ bitField p).extractLsb' 1 2 = gg ∧ (gg ++ bitField p).getLsbD 0 = p := by
    revert gg p
    decide
  rw [wordIndImm_eq, openWord_wordExt]
  simp only [openExtended, hw.bit11, hw.bits10to9, hw.bits7to6, hw.bit8, hw.bit5, hw.bit4, hw.low4, hhigh,
    ofModeBits_bits]
  obtain rfl | rfl := htt <;> rfl

/-- ADCJ and SBCJ of an indirect form (30_encoding.md R141). -/
theorem openWord_base (m : Ind) (f : Nibble) :
    openWord (wordIndImm 3 0 m f) = some (.whole (baseView (.ind m) f)) := by
  have hw := wordExt_fields ((3 : BitVec 2) ++ bitField m.bitP) 0 m.bitB m.bitX f
  rw [wordIndImm_eq, openWord_wordExt_00]
  simp only [openExt00, hw.bits10to8, hw.bit5, hw.bit4, hw.low4]
  cases m <;> rfl

/-- Bits 10 to 8 of F-MMOV are the bit number and a 0. -/
theorem mmov_high (n : Fin 4) : ((BitVec.ofFin n : BitVec 2) ++ 0#1).getLsbD 0 = false ∧
    (((BitVec.ofFin n : BitVec 2) ++ 0#1).extractLsb' 1 2).toFin = n := by
  revert n
  decide

/-- F-MMOV (30_encoding.md R127). -/
theorem openWord_wordMmov (n : Fin 4) (m : IndFixed) (f : Nibble) :
    openWord (wordMmov n m f) = some (.whole (.mmov m f n)) := by
  have hw := wordExt_fields ((BitVec.ofFin n : BitVec 2) ++ 0#1) 3 m.toInd.bitB m.toInd.bitX f
  rw [wordMmov_eq, openWord_wordExt_11]
  simp only [openExt11, hw.bit8, hw.bit5, hw.bit4, hw.bits10to9, hw.low4, mmov_high, fixed_ofModeBits_bits, if_true]

/-- MOVXB with xadr16 (30_encoding.md R125 (b)). -/
theorem openWord_wordXm (m : Ind) (d : Bool) :
    openWord (wordXm m d) =
      if d then some (.more fun a => .xmStore (.adr a) m) else some (.more fun a => .xmLoad m (.adr a)) := by
  have hw := wordExt_fields 3 3 m.bitB m.bitX (bitField m.bitP ++ 0#2 ++ bitField d)
  rw [wordXm_eq, openWord_wordExt_11]
  simp only [openExt11, hw.bit8, hw.bits10to8, hw.bits5to4, hw.bit5, hw.bit4, hw.bit3, hw.bits2to1, hw.bit0]
  cases m <;> cases d <;> rfl

/-- Besides fixed codes, the words the decoder opens as nothing (30_encoding.md R147). -/
theorem openWord_unassigned {h : BitVec 3} {b x : Bool} {f : Nibble} (hodd : h.getLsbD 0 = true)
    (hmov : ¬ (h = 1 ∧ b = false ∧ x = false)) (hxm : ¬ (h = 3 ∧ f.extractLsb' 1 2 = 0)) :
    openWord (wordExt h 3 b x f) = none := by
  have hw := wordExt_fields h 3 b x f
  have hmode : bitField b ++ bitField x = 0#2 → b = false ∧ x = false := by
    cases b <;> cases x <;> decide
  have hmov' : ¬ (h = 1#3 ∧ bitField b ++ bitField x = 0#2) := fun hc => hmov ⟨hc.1, hmode hc.2⟩
  have hxm' : ¬ (h = 3#3 ∧ f.extractLsb' 1 2 = 0#2) := hxm
  rw [openWord_wordExt_11]
  simp only [openExt11, hw.bit8, hodd, hw.bits10to8, hw.bits5to4, hw.bits2to1, if_neg hmov', if_neg hxm',
    Bool.true_eq_false, if_false]

/-- F-REL (30_encoding.md R129). -/
theorem openWord_wordRel (cc : BitVec 2) (t : Bool) (d : Byte) :
    openWord (wordRel cc t d) = some (.whole (branchView cc.toNat t d)) := by
  obtain ⟨hdigit, hrel, hcc, ht, hd⟩ := wordRel_fields cc t d
  simp only [openWord, openExtended, hdigit, hrel, hcc, ht, hd]
  rfl

/-- The operation and the operand form of a word of format F-SFR, F-CUR or F-CURI, its first digit being 1 to 11
(30_encoding.md R137). -/
def offsetView (t : Nat) (n : Nibble) (r : Byte) : View :=
  match t with
  | 1 => baseView (.cur r) n
  | 2 => .alu (AluOp.ofField n.toNat) (.sfr r)
  | 3 => .alu (AluOp.ofField n.toNat) (.cur r)
  | 4 => .imm .mov (.cur r) n
  | 5 => .imm .and (.cur r) n
  | 6 => .imm .or (.cur r) n
  | 7 => .imm .xor (.cur r) n
  | 8 => .imm .add (.cur r) n
  | 9 => .imm .sub (.cur r) n
  | 10 => .imm .cmp (.cur r) n
  | _ => .imm .mtst (.cur r) n

theorem openWord_wordOffset {t : Nat} (n : Nibble) (r : Byte) (hlo : 1 ≤ t) (hhi : t ≤ 11) :
    openWord (wordOffset (BitVec.ofNat 4 t) n r) = some (.whole (offsetView t n r)) := by
  obtain ⟨ht, hn, hr⟩ := wordOffset_fields (BitVec.ofNat 4 t) n r
  simp only [openWord, ht, hn, hr]
  interval_cases t <;> rfl

/-- The operation and the operand form of a word of format F-DIR or F-A12, its first digit being 12 to 15
(30_encoding.md R137). -/
def longView (t : Nat) (a : BitVec 12) : View :=
  match t with
  | 12 => .movFromA (.direct a)
  | 13 => .movToA (.direct a)
  | 14 => .jmp a
  | _ => .cal a

theorem openWord_word12 {t : Nat} (a : BitVec 12) (hlo : 12 ≤ t) (hhi : t ≤ 15) :
    openWord (word12 (BitVec.ofNat 4 t) a) = some (.whole (longView t a)) := by
  obtain ⟨ht, ha⟩ := word12_fields (BitVec.ofNat 4 t) a
  simp only [openWord, ht, ha]
  interval_cases t <;> rfl

/-! ## Every word has a format -/

/-- The formats of 30_encoding.md R122 to R131, and the words of the extended space that have none. -/
inductive WordFormat : Word → Prop
  /-- F-SFR, F-CUR and F-CURI. -/
  | offset {t : Nat} (n : Nibble) (r : Byte) (hlo : 1 ≤ t) (hhi : t ≤ 11) :
      WordFormat (wordOffset (BitVec.ofNat 4 t) n r)
  /-- F-DIR and F-A12. -/
  | long {t : Nat} (a : BitVec 12) (hlo : 12 ≤ t) (hhi : t ≤ 15) : WordFormat (word12 (BitVec.ofNat 4 t) a)
  /-- F-REL. -/
  | rel (cc : BitVec 2) (t : Bool) (d : Byte) : WordFormat (wordRel cc t d)
  /-- The codes 0000H to 001FH, of which R147 leaves some unassigned. -/
  | fixed (x : Bool) (f : Nibble) : WordFormat (wordExt 0 0 false x f)
  /-- F-REGI without MOV A, #i4. -/
  | reg {h : BitVec 3} {b : Bool} (x : Bool) (i : Nibble) (hh : h = 0 ∧ b = true ∨ h = 1 ∨ h = 2) :
      WordFormat (wordExt h 0 b x i)
  /-- MOV A, #i4. -/
  | movAImm (i : Nibble) : WordFormat (wordExt 1 3 false false i)
  /-- F-IND. -/
  | ind {g : BitVec 3} (m : Ind) (o : BitVec 3) (hg : g = 3 ∨ g = 4 ∨ g = 5) : WordFormat (wordInd g m o)
  /-- F-INDI of ADCJ and SBCJ. -/
  | base (m : Ind) (f : Nibble) : WordFormat (wordIndImm 3 0 m f)
  /-- F-INDI of the operations with an immediate. -/
  | indImm (gg : BitVec 2) {tt : BitVec 2} (m : Ind) (i : Nibble) (htt : tt = 1 ∨ tt = 2) :
      WordFormat (wordIndImm gg tt m i)
  /-- F-MMOV. -/
  | mmov (n : Fin 4) (m : IndFixed) (f : Nibble) : WordFormat (wordMmov n m f)
  /-- MOVXB with xadr16. -/
  | xm (m : Ind) (d : Bool) : WordFormat (wordXm m d)
  /-- Bits 7 and 6 are 11, bit 8 is 1, and the word is no MOV A, #i4 and no MOVXB with xadr16 (R147). -/
  | unassigned {h : BitVec 3} {b x : Bool} {f : Nibble} (hodd : h.getLsbD 0 = true)
      (hmov : ¬ (h = 1 ∧ b = false ∧ x = false)) (hxm : ¬ (h = 3 ∧ f.extractLsb' 1 2 = 0)) :
      WordFormat (wordExt h 3 b x f)

theorem eq_wordOffset (w : Word) :
    w = wordOffset (w.extractLsb' 12 4) (w.extractLsb' 8 4) (w.extractLsb' 0 8) := by
  apply BitVec.eq_of_toNat_eq
  simp only [wordOffset_toNat, extract_toNat]
  have := w.isLt
  omega

theorem word12_toNat (t : Nibble) (a : BitVec 12) : (word12 t a).toNat = 4096 * t.toNat + a.toNat :=
  (append_toNat t a).trans (by omega)

theorem eq_word12 (w : Word) : w = word12 (w.extractLsb' 12 4) (w.extractLsb' 0 12) := by
  apply BitVec.eq_of_toNat_eq
  simp only [word12_toNat, extract_toNat]
  have := w.isLt
  omega

/-- A bit of a word as a number. -/
theorem getLsbD_toNat {n : Nat} (w : BitVec n) (i : Nat) : (w.getLsbD i).toNat = w.toNat / 2 ^ i % 2 := by
  rw [getLsbD_eq_decide]
  rcases Nat.mod_two_eq_zero_or_one (w.toNat / 2 ^ i) with h | h <;> simp [h]

theorem wordRel_toNat (cc : BitVec 2) (t : Bool) (d : Byte) :
    (wordRel cc t d).toNat = 2048 + 512 * cc.toNat + 256 * (d.toNat / 128) + 128 * t.toNat + d.toNat % 128 := by
  simp only [wordRel, append_toNat, bitField_toNat, getLsbD_toNat, extract_toNat, BitVec.toNat_ofNat]
  have := d.isLt
  omega

theorem exists_eq_wordRel {w : Word} (hlo : 2048 ≤ w.toNat) (hhi : w.toNat < 4096) :
    ∃ cc t d, w = wordRel cc t d := by
  refine ⟨w.extractLsb' 9 2, w.getLsbD 7, BitVec.ofNat 8 (128 * (w.toNat / 256 % 2) + w.toNat % 128), ?_⟩
  apply BitVec.eq_of_toNat_eq
  simp only [wordRel_toNat, extract_toNat, getLsbD_toNat, BitVec.toNat_ofNat]
  have h7 : w.toNat / 2 ^ 7 / 2 = w.toNat / 256 := Nat.div_div_eq_div_mul _ _ _
  have h8 : w.toNat / 256 / 2 = w.toNat / 2 ^ 9 := Nat.div_div_eq_div_mul _ _ _
  have h9 : w.toNat / 2 ^ 9 / 4 = 1 := by omega
  omega

theorem eq_wordExt {w : Word} (hw : w.toNat < 2048) :
    w = wordExt (w.extractLsb' 8 3) (w.extractLsb' 6 2) (w.getLsbD 5) (w.getLsbD 4) (w.extractLsb' 0 4) := by
  apply BitVec.eq_of_toNat_eq
  simp only [wordExt_toNat, extract_toNat, getLsbD_toNat]
  omega

theorem eq_append_bit (h : BitVec 3) : h = h.extractLsb' 1 2 ++ bitField (h.getLsbD 0) := by
  revert h
  decide

theorem eq_bit_append (f : Nibble) : f = bitField (f.getLsbD 3) ++ f.extractLsb' 0 3 := by
  revert f
  decide

theorem wordFormat_ind {g : BitVec 3} (b x : Bool) (f : Nibble) (hg : g = 3 ∨ g = 4 ∨ g = 5) :
    WordFormat (wordExt g 0 b x f) := by
  obtain ⟨m, rfl, rfl, hp⟩ := exists_ind_bits b x (f.getLsbD 3)
  rw [eq_bit_append f, ← hp, ← wordInd_eq]
  exact .ind m _ hg

theorem wordFormat_base {h : BitVec 3} (b x : Bool) (f : Nibble) (hh : h = 6 ∨ h = 7) :
    WordFormat (wordExt h 0 b x f) := by
  obtain ⟨m, rfl, rfl, hp⟩ := exists_ind_bits b x (h.getLsbD 0)
  have hgg : h.extractLsb' 1 2 = 3 := by obtain rfl | rfl := hh <;> rfl
  rw [eq_append_bit h, ← hp, hgg, ← wordIndImm_eq]
  exact .base m f

/-- Bits 7 and 6 equal to 00 (30_encoding.md R138). -/
theorem wordFormat_00 (h : BitVec 3) (b x : Bool) (f : Nibble) : WordFormat (wordExt h 0 b x f) := by
  have hcases : h = 0 ∨ (h = 1 ∨ h = 2) ∨ (h = 3 ∨ h = 4 ∨ h = 5) ∨ (h = 6 ∨ h = 7) := by
    revert h
    decide
  obtain rfl | hreg | hind | hbase := hcases
  · cases b
    · exact .fixed x f
    · exact .reg x f (.inl ⟨rfl, rfl⟩)
  · exact .reg x f (.inr hreg)
  · exact wordFormat_ind b x f hind
  · exact wordFormat_base b x f hbase

/-- Bits 7 and 6 equal to 01 or 10 (30_encoding.md R138, R141). -/
theorem wordFormat_imm (h : BitVec 3) {tt : BitVec 2} (b x : Bool) (f : Nibble) (htt : tt = 1 ∨ tt = 2) :
    WordFormat (wordExt h tt b x f) := by
  obtain ⟨m, rfl, rfl, hp⟩ := exists_ind_bits b x (h.getLsbD 0)
  rw [eq_append_bit h, ← hp, ← wordIndImm_eq]
  exact .indImm _ m f htt

theorem wordFormat_mmov {h : BitVec 3} (b x : Bool) (f : Nibble) (heven : h.getLsbD 0 = false) :
    WordFormat (wordExt h 3 b x f) := by
  obtain ⟨m, rfl, rfl⟩ := exists_fixed_bits b x
  have hn : h = (BitVec.ofFin (h.extractLsb' 1 2).toFin : BitVec 2) ++ 0#1 := by
    revert h
    decide
  rw [hn, ← wordMmov_eq]
  exact .mmov _ m f

theorem wordFormat_xm (b x : Bool) {f : Nibble} (hf : f.extractLsb' 1 2 = 0) : WordFormat (wordExt 3 3 b x f) := by
  have hd : f = bitField (f.getLsbD 3) ++ 0#2 ++ bitField (f.getLsbD 0) := by
    revert f
    decide
  obtain ⟨m, rfl, rfl, hp⟩ := exists_ind_bits b x (f.getLsbD 3)
  rw [hd, ← hp, ← wordXm_eq]
  exact .xm m _

/-- Bits 7 and 6 equal to 11 (30_encoding.md R138). -/
theorem wordFormat_11 (h : BitVec 3) (b x : Bool) (f : Nibble) : WordFormat (wordExt h 3 b x f) := by
  cases heven : h.getLsbD 0
  · exact wordFormat_mmov b x f heven
  · by_cases hmov : h = 1 ∧ b = false ∧ x = false
    · obtain ⟨rfl, rfl, rfl⟩ := hmov
      exact .movAImm f
    · by_cases hxm : h = 3 ∧ f.extractLsb' 1 2 = 0
      · obtain ⟨rfl, hf⟩ := hxm
        exact wordFormat_xm b x hf
      · exact .unassigned heven hmov hxm

theorem wordFormat_ext (h : BitVec 3) (tt : BitVec 2) (b x : Bool) (f : Nibble) :
    WordFormat (wordExt h tt b x f) := by
  have hcases : tt = 0 ∨ (tt = 1 ∨ tt = 2) ∨ tt = 3 := by
    revert tt
    decide
  obtain rfl | htt | rfl := hcases
  · exact wordFormat_00 h b x f
  · exact wordFormat_imm h b x f htt
  · exact wordFormat_11 h b x f

/-- Every word has a format, by its first digit and then by the fields of R138. -/
theorem wordFormat (w : Word) : WordFormat w := by
  have hdigit : w.extractLsb' 12 4 = BitVec.ofNat 4 (w.toNat / 4096) := by
    apply BitVec.eq_of_toNat_eq
    exact extract_toNat w 12 4
  have hlt := w.isLt
  by_cases hext : w.toNat < 2048
  · rw [eq_wordExt hext]
    exact wordFormat_ext _ _ _ _ _
  · by_cases hrel : w.toNat < 4096
    · obtain ⟨cc, t, d, rfl⟩ := exists_eq_wordRel (by omega) hrel
      exact .rel cc t d
    · by_cases hoffset : w.toNat < 49152
      · rw [eq_wordOffset w, hdigit]
        exact .offset _ _ (by omega) (by omega)
      · rw [eq_word12 w, hdigit]
        exact .long _ (by omega) (by omega)

/-! ## The words of an instruction -/

/-- The decoder reads an operation and its operand form from exactly these words (30_encoding.md R120, R121). -/
inductive Opens : List Word → View → Prop
  | one {w : Word} {v : View} (h : openWord w = some (.whole v)) : Opens [w] v
  | two {w : Word} {k : Word → View} (h : openWord w = some (.more k)) (a : Word) : Opens [w, a] (k a)

/-- What the decoder answers. -/
theorem decode_eq_ok_iff (ws rest : List Word) (i : Instr) :
    decode ws = .ok i rest ↔ ∃ us v, Opens us v ∧ ws = us ++ rest ∧ v.toInstr = i := by
  constructor
  · intro h
    unfold decode at h
    split at h
    · cases h
    · split at h
      · cases h
      · cases h
        exact ⟨_, _, .one ‹_›, rfl, rfl⟩
      · split at h
        · cases h
        · cases h
          exact ⟨_, _, .two ‹_› _, rfl, rfl⟩
  · rintro ⟨us, v, hopens | ⟨hopens, a⟩, rfl, rfl⟩
    · simp only [List.cons_append, List.nil_append, decode, hopens]
    · simp only [List.cons_append, List.nil_append, decode, hopens]

/-! ### The decoder on what the encoder writes -/

/-- The indirect form of an operation on a location and A. -/
theorem openWord_alu_wordInd (op : AluOp) (m : Ind) :
    openWord (op.wordInd m) = some (.whole (.alu op (.ind m))) := by
  cases op
  case xch => exact openWord_wordInd m 1 (.inl rfl)
  case and => exact openWord_wordInd m 1 (.inr (.inl rfl))
  case or => exact openWord_wordInd m 2 (.inr (.inl rfl))
  case xor => exact openWord_wordInd m 3 (.inr (.inl rfl))
  case cmp => exact openWord_wordInd m 4 (.inr (.inl rfl))
  case mtst => exact openWord_wordInd m 5 (.inr (.inl rfl))
  case rol => exact openWord_wordInd m 6 (.inr (.inl rfl))
  case ror => exact openWord_wordInd m 7 (.inr (.inl rfl))
  case inc => exact openWord_wordInd m 0 (.inr (.inr rfl))
  case dec => exact openWord_wordInd m 1 (.inr (.inr rfl))
  case add => exact openWord_wordInd m 2 (.inr (.inr rfl))
  case adc => exact openWord_wordInd m 3 (.inr (.inr rfl))
  case adcd => exact openWord_wordInd m 4 (.inr (.inr rfl))
  case sub => exact openWord_wordInd m 5 (.inr (.inr rfl))
  case sbc => exact openWord_wordInd m 6 (.inr (.inr rfl))
  case sbcd => exact openWord_wordInd m 7 (.inr (.inr rfl))

theorem ofField_field (op : AluOp) : AluOp.ofField op.field.toNat = op := by
  cases op <;> rfl

theorem opens_alu (op : AluOp) (o : AluObj) : Opens (View.alu op o).encode (.alu op o) := by
  cases o with
  | sfr r =>
    have h := openWord_wordOffset (t := 2) op.field r (by decide) (by decide)
    rw [offsetView, ofField_field] at h
    exact .one h
  | cur r =>
    have h := openWord_wordOffset (t := 3) op.field r (by decide) (by decide)
    rw [offsetView, ofField_field] at h
    exact .one h
  | ind m => exact .one (openWord_alu_wordInd op m)

/-- MCLR, MSET and MNOT are opened as AND, OR and XOR (30_encoding.md R146). -/
theorem openWord_imm_word (op : ImmOp) (o : ImmObj) (i : Nibble) :
    openWord (op.word o i) = some (.whole (.imm op.primary o i)) := by
  cases o with
  | cur r =>
    cases op
    case mov => exact openWord_wordOffset (t := 4) i r (by decide) (by decide)
    case and | mclr => exact openWord_wordOffset (t := 5) i r (by decide) (by decide)
    case or | mset => exact openWord_wordOffset (t := 6) i r (by decide) (by decide)
    case xor | mnot => exact openWord_wordOffset (t := 7) i r (by decide) (by decide)
    case add => exact openWord_wordOffset (t := 8) i r (by decide) (by decide)
    case sub => exact openWord_wordOffset (t := 9) i r (by decide) (by decide)
    case cmp => exact openWord_wordOffset (t := 10) i r (by decide) (by decide)
    case mtst => exact openWord_wordOffset (t := 11) i r (by decide) (by decide)
  | ind m =>
    cases op
    case mov => exact openWord_wordIndImm 3 m i (.inl rfl)
    case and | mclr => exact openWord_wordIndImm 2 m i (.inl rfl)
    case or | mset => exact openWord_wordIndImm 1 m i (.inl rfl)
    case xor | mnot => exact openWord_wordIndImm 0 m i (.inl rfl)
    case add => exact openWord_wordIndImm 0 m i (.inr rfl)
    case sub => exact openWord_wordIndImm 1 m i (.inr rfl)
    case cmp => exact openWord_wordIndImm 3 m i (.inr rfl)
    case mtst => exact openWord_wordIndImm 2 m i (.inr rfl)

/-- An operation on one bit is opened as the operation with the selector as immediate (30_encoding.md R145, R146). -/
theorem opens_bit (op : BitOp) (o : ImmObj) (n : Fin 4) : Opens (View.bit op o n).encode (op.primary o n) := by
  cases op with
  | btst => exact .one (openWord_imm_word .mtst o (oneHot n))
  | bclr => exact .one (openWord_imm_word .and o (oneCold n))
  | bset => exact .one (openWord_imm_word .or o (oneHot n))
  | bnot => exact .one (openWord_imm_word .xor o (oneHot n))

/-- The field of ADCJ and SBCJ gives the operation and the base again, base 16 being the field 0
(30_encoding.md R145 (f)). -/
theorem baseView_baseField (op : BaseOp) (o : ImmObj) {n : Nat} (hn : baseOk n = true) :
    baseView o (baseField op n) = .baseN op o n := by
  obtain ⟨heven, hlo, hhi⟩ : n % 2 = 0 ∧ 2 ≤ n ∧ n ≤ 16 := of_decide_eq_true hn
  obtain ⟨k, rfl⟩ : ∃ k, n = 2 * k := ⟨n / 2, by omega⟩
  have hk : 1 ≤ k ∧ k ≤ 8 := by omega
  obtain ⟨h1, h8⟩ := hk
  interval_cases k <;> cases op <;> rfl

theorem openWord_baseWord (op : BaseOp) (o : ImmObj) {n : Nat} (hn : baseOk n = true) :
    openWord (baseWord op o n) = some (.whole (.baseN op o n)) := by
  rw [← baseView_baseField op o hn]
  cases o with
  | cur r => exact openWord_wordOffset (t := 1) (baseField op n) r (by decide) (by decide)
  | ind m => exact openWord_base m (baseField op n)

theorem opens_rom (half : Half) (m : Ind) (src : FarAddr) : Opens (View.rom half m src).encode (.rom half m src) := by
  cases src with
  | ra =>
    cases half with
    | hb => exact .one (openWord_wordInd m 2 (.inl rfl))
    | lb => exact .one (openWord_wordInd m 3 (.inl rfl))
  | adr w =>
    cases half with
    | hb => exact .two (openWord_wordInd m 4 (.inl rfl)) w
    | lb => exact .two (openWord_wordInd m 5 (.inl rfl)) w

theorem opens_xmLoad (m : Ind) (src : FarAddr) : Opens (View.xmLoad m src).encode (.xmLoad m src) := by
  cases src with
  | ra => exact .one (openWord_wordInd m 6 (.inl rfl))
  | adr w => exact .two (openWord_wordXm m false) w

theorem opens_xmStore (dst : FarAddr) (m : Ind) : Opens (View.xmStore dst m).encode (.xmStore dst m) := by
  cases dst with
  | ra => exact .one (openWord_wordInd m 7 (.inl rfl))
  | adr w => exact .two (openWord_wordXm m true) w

theorem opens_branch (b : Cond) (d : Byte) : Opens (View.branch b d).encode (.branch b.primary d) := by
  have h := openWord_wordRel b.fields.1 b.fields.2 d
  cases b <;> exact .one h

theorem opens_movReg (r : Reg) (i : Nibble) : Opens (View.movReg r i).encode (.movReg r i) := by
  cases r
  case ebr => exact .one (openWord_reg (h := 0) (b := true) false i (.inl ⟨rfl, rfl⟩))
  case cbr => exact .one (openWord_reg (h := 0) (b := true) true i (.inl ⟨rfl, rfl⟩))
  case y => exact .one (openWord_reg (h := 1) (b := false) false i (.inr (.inl rfl)))
  case x => exact .one (openWord_reg (h := 1) (b := false) true i (.inr (.inl rfl)))
  case l => exact .one (openWord_reg (h := 1) (b := true) false i (.inr (.inl rfl)))
  case h => exact .one (openWord_reg (h := 1) (b := true) true i (.inr (.inl rfl)))
  case ra0 => exact .one (openWord_reg (h := 2) (b := false) false i (.inr (.inr rfl)))
  case ra1 => exact .one (openWord_reg (h := 2) (b := false) true i (.inr (.inr rfl)))
  case ra2 => exact .one (openWord_reg (h := 2) (b := true) false i (.inr (.inr rfl)))
  case ra3 => exact .one (openWord_reg (h := 2) (b := true) true i (.inr (.inr rfl)))

/-- The decoder reads the primary spelling from the words the encoder writes (30_encoding.md R146). -/
theorem opens_encode {v : View} (hv : v.wellFormed = true) : Opens v.encode v.primary := by
  cases v with
  | alu op o => exact opens_alu op o
  | movToA o =>
    cases o with
    | direct a => exact .one (openWord_word12 (t := 13) a (by decide) (by decide))
    | ind m => exact .one (openWord_wordInd m 0 (.inl rfl))
  | movFromA o =>
    cases o with
    | direct a => exact .one (openWord_word12 (t := 12) a (by decide) (by decide))
    | ind m => exact .one (openWord_wordInd m 0 (.inr (.inl rfl)))
  | movAImm i => exact .one (openWord_movAImm i)
  | imm op o i => exact .one (openWord_imm_word op o i)
  | bit op o n => exact opens_bit op o n
  | baseN op o n => exact .one (openWord_baseWord op o hv)
  | mmov m f n => exact .one (openWord_wordMmov n m f)
  | bmov m k n => exact .one (openWord_wordMmov n m (oneHot k))
  | rom half m src => exact opens_rom half m src
  | xmLoad m src => exact opens_xmLoad m src
  | xmStore dst m => exact opens_xmStore dst m
  | push p => cases p <;> exact .one rfl
  | pop p => cases p <;> exact .one rfl
  | fclr f => cases f <;> exact .one rfl
  | fset f => cases f <;> exact .one rfl
  | ljmp w => exact .two (k := .ljmp) rfl w
  | lcal w => exact .two (k := .lcal) rfl w
  | msa w => exact .two (k := .msa) rfl w
  | jmp a => exact .one (openWord_word12 (t := 14) a (by decide) (by decide))
  | cal a => exact .one (openWord_word12 (t := 15) a (by decide) (by decide))
  | sjmp d => exact .one (openWord_wordRel 0 true d)
  | branch b d => exact opens_branch b d
  | movReg r i => exact opens_movReg r i
  | incb p => cases p <;> exact .one rfl
  | jmpPcA | rt | rti | rtnmi | nop | halt | ei | di | incw => exact .one rfl

/-! ### The words of what the decoder answers -/

/-- These are the words of the operation and operand form, which is well-formed and no second spelling. -/
structure Spells (ws : List Word) (v : View) : Prop where
  encode : v.encode = ws
  wellFormed : v.wellFormed = true
  isPrimary : v.isPrimary = true

/-- The word is the first of what it was opened as, whatever word follows. -/
def Opened.IsFrom (w : Word) : Opened → Prop
  | .whole v => Spells [w] v
  | .more k => ∀ a, Spells [w, a] (k a)

/-- The field of ADCJ and SBCJ is that of the operation and the base it gives, and the base is one
(30_encoding.md R145 (f)). -/
theorem baseField_of_field (f : Nibble) :
    baseField (if f.getLsbD 3 then .sbcj else .adcj) (baseOfField (f.extractLsb' 0 3).toNat) = f ∧
      baseOk (baseOfField (f.extractLsb' 0 3).toNat) = true := by
  revert f
  decide

/-- ADCJ and SBCJ are spelled by the word that carries their field. -/
theorem spells_baseView {o : ImmObj} {f : Nibble} {w : Word}
    (hw : ∀ op n, baseField op n = f → baseWord op o n = w) : Spells [w] (baseView o f) := by
  obtain ⟨hfield, hbase⟩ := baseField_of_field f
  exact ⟨congrArg (fun u => [u]) (hw _ _ hfield), hbase, rfl⟩

theorem field_ofField (n : Nibble) : (AluOp.ofField n.toNat).field = n := by
  revert n
  decide

theorem spells_offsetView {t : Nat} (n : Nibble) (r : Byte) (hlo : 1 ≤ t) (hhi : t ≤ 11) :
    Spells [wordOffset (BitVec.ofNat 4 t) n r] (offsetView t n r) := by
  have hcases : t = 1 ∨ t = 2 ∨ t = 3 ∨ 4 ≤ t := by omega
  obtain rfl | rfl | rfl | himm := hcases
  · exact spells_baseView fun _ _ hfield => congrArg (wordOffset 1 · r) hfield
  · exact ⟨by rw [offsetView, View.encode, field_ofField]; rfl, rfl, rfl⟩
  · exact ⟨by rw [offsetView, View.encode, field_ofField]; rfl, rfl, rfl⟩
  · interval_cases t <;> exact ⟨rfl, rfl, rfl⟩

theorem spells_longView {t : Nat} (a : BitVec 12) (hlo : 12 ≤ t) (hhi : t ≤ 15) :
    Spells [word12 (BitVec.ofNat 4 t) a] (longView t a) := by
  interval_cases t <;> exact ⟨rfl, rfl, rfl⟩

theorem spells_branchView (cc : BitVec 2) (t : Bool) (d : Byte) :
    Spells [wordRel cc t d] (branchView cc.toNat t d) := by
  have hcc : cc = 0 ∨ cc = 1 ∨ cc = 2 ∨ cc = 3 := by
    revert cc
    decide
  obtain rfl | rfl | rfl | rfl := hcc <;> cases t <;> exact ⟨rfl, rfl, rfl⟩

/-- Row by row of R143. -/
theorem isFrom_openFixed {n : Nat} {opened : Opened} (h : openFixed n = some opened) :
    opened.IsFrom (BitVec.ofNat 16 n) := by
  unfold openFixed at h
  split at h <;> cases h
  all_goals
    simp only [Opened.IsFrom]
    intros
    exact ⟨rfl, rfl, rfl⟩

/-- Row by row of R144. -/
theorem isFrom_openReg {h d : Nat} {i : Nibble} {opened : Opened} (hop : openReg h d i = some opened) :
    opened.IsFrom (BitVec.ofNat 12 (16 * h + d) ++ i) := by
  unfold openReg at hop
  split at hop <;> cases hop <;> exact ⟨rfl, rfl, rfl⟩

/-- Row by row of R140. -/
theorem isFrom_openInd {g o : Nat} {m : Ind} {opened : Opened} (h : openInd g o m = some opened) :
    opened.IsFrom (wordInd (BitVec.ofNat 3 g) m (BitVec.ofNat 3 o)) := by
  unfold openInd at h
  split at h <;> cases h
  all_goals
    simp only [Opened.IsFrom]
    intros
    exact ⟨rfl, rfl, rfl⟩

/-- Row by row of R141. -/
theorem isFrom_openIndImm {gg tt : Nat} {m : Ind} {i : Nibble} {opened : Opened}
    (h : openIndImm gg tt m i = some opened) :
    opened.IsFrom (wordIndImm (BitVec.ofNat 2 gg) (BitVec.ofNat 2 tt) m i) := by
  unfold openIndImm at h
  split at h <;> cases h <;> exact ⟨rfl, rfl, rfl⟩

theorem fixed_eq_ofNat (x : Bool) (f : Nibble) : wordExt 0 0 false x f = BitVec.ofNat 16 (bitField x ++ f).toNat := by
  revert x f
  decide

theorem isFrom_fixed (x : Bool) (f : Nibble) {opened : Opened} (h : openFixed (bitField x ++ f).toNat = some opened) :
    opened.IsFrom (wordExt 0 0 false x f) := by
  rw [fixed_eq_ofNat]
  exact isFrom_openFixed h

theorem reg_eq_ofNat (h : BitVec 3) (b x : Bool) (i : Nibble) :
    wordExt h 0 b x i = BitVec.ofNat 12 (16 * h.toNat + (0#2 ++ bitField b ++ bitField x).toNat) ++ i := by
  have hprefix : 0#5 ++ h ++ 0#2 ++ bitField b ++ bitField x =
      BitVec.ofNat 12 (16 * h.toNat + (0#2 ++ bitField b ++ bitField x).toNat) := by
    revert h b x
    decide
  exact congrArg (· ++ i) hprefix

theorem isFrom_reg {h : BitVec 3} {b : Bool} (x : Bool) (i : Nibble) {opened : Opened}
    (hop : openReg h.toNat (0#2 ++ bitField b ++ bitField x).toNat i = some opened) :
    opened.IsFrom (wordExt h 0 b x i) := by
  rw [reg_eq_ofNat]
  exact isFrom_openReg hop

/-- The first word of what the decoder answers is the one it opened, format by format. -/
theorem isFrom_of_openWord {w : Word} {opened : Opened} (h : openWord w = some opened) : opened.IsFrom w := by
  cases wordFormat w with
  | offset n r hlo hhi =>
    rw [openWord_wordOffset n r hlo hhi] at h
    cases h
    exact spells_offsetView n r hlo hhi
  | long a hlo hhi =>
    rw [openWord_word12 a hlo hhi] at h
    cases h
    exact spells_longView a hlo hhi
  | rel cc t d =>
    rw [openWord_wordRel] at h
    cases h
    exact spells_branchView cc t d
  | fixed x f =>
    rw [openWord_fixed] at h
    exact isFrom_fixed x f h
  | reg x i hh =>
    rw [openWord_reg x i hh] at h
    exact isFrom_reg x i h
  | movAImm i =>
    rw [openWord_movAImm] at h
    cases h
    exact ⟨rfl, rfl, rfl⟩
  | ind m o hg =>
    rw [openWord_wordInd m o hg] at h
    simpa using isFrom_openInd h
  | base m f =>
    rw [openWord_base] at h
    cases h
    exact spells_baseView fun _ _ hfield => congrArg (wordIndImm 3 0 m) hfield
  | indImm gg m i htt =>
    rw [openWord_wordIndImm gg m i htt] at h
    simpa using isFrom_openIndImm h
  | mmov n m f =>
    rw [openWord_wordMmov] at h
    cases h
    exact ⟨rfl, rfl, rfl⟩
  | xm m d =>
    rw [openWord_wordXm] at h
    cases d <;> cases h <;> exact fun _ => ⟨rfl, rfl, rfl⟩
  | unassigned hodd hmov hxm =>
    rw [openWord_unassigned hodd hmov hxm] at h
    cases h

/-- What the decoder read is spelled by the words it read. -/
theorem spells_of_opens {ws : List Word} {v : View} (h : Opens ws v) : Spells ws v := by
  cases h with
  | one h => exact isFrom_of_openWord h
  | two h a => exact isFrom_of_openWord h a

/-- An instruction has as many words as it says (30_encoding.md R120). -/
theorem View.encode_length (v : View) : v.encode.length = v.words := by
  cases v with
  | alu op o => cases o <;> rfl
  | movToA o => cases o <;> rfl
  | movFromA o => cases o <;> rfl
  | rom half m src => cases half <;> cases src <;> rfl
  | xmLoad m src => cases src <;> rfl
  | xmStore dst m => cases dst <;> rfl
  | push p => cases p <;> rfl
  | pop p => cases p <;> rfl
  | fclr f => cases f <;> rfl
  | fset f => cases f <;> rfl
  | incb p => cases p <;> rfl
  | _ => rfl

/-- Settles O3: what the decoder read is spelled by the words it read (`spells_of_opens`). -/
theorem encodeOfDecode : Obligations.EncodeOfDecode := by
  intro ws rest i h
  obtain ⟨us, v, hopens, rfl, rfl⟩ := (decode_eq_ok_iff ws rest i).1 h
  obtain ⟨hencode, hwf, hprimary⟩ := spells_of_opens hopens
  refine ⟨?_, ?_, ?_, View.encode_length _⟩
  · rw [encode, view_toInstr, hencode]
  · rw [Instr.wellFormed, view_toInstr, hwf]
  · rw [view_toInstr, hprimary]

/-- A primary spelling is its own primary spelling. -/
theorem primary_of_isPrimary {v : View} (h : v.isPrimary = true) : v.primary = v := by
  cases v with
  | imm op o i =>
    cases op with
    | mclr | mset | mnot => cases h
    | _ => rfl
  | branch b d =>
    cases b with
    | blt | bge | beq | bne => cases h
    | _ => rfl
  | bit op o n => cases h
  | bmov m k n => cases h
  | _ => rfl

/-- Settles O2: the decoder reads the primary spelling from the words of the instruction (`opens_encode`), and what it
reads is primary and well-formed (`spells_of_opens`). -/
theorem decodeOfEncode : Obligations.DecodeOfEncode := by
  intro i hwf
  have hopens : Opens (encode i) i.view.primary := opens_encode hwf
  have hview : i.primary.view = i.view.primary := view_toInstr _
  obtain ⟨-, hwf', hprimary⟩ := spells_of_opens hopens
  refine ⟨fun rest => ?_, fun h => ?_, ?_, ?_⟩
  · exact (decode_eq_ok_iff _ _ _).2 ⟨_, _, hopens, rfl, rfl⟩
  · rw [Instr.primary, primary_of_isPrimary h, toInstr_view]
  · rw [hview, hprimary]
  · rw [Instr.wellFormed, hview, hwf']

/-! ## The unassigned words -/

theorem openReg_isSome {h : BitVec 3} {b : Bool} (x : Bool) (i : Nibble) (hh : h = 0 ∧ b = true ∨ h = 1 ∨ h = 2) :
    (openReg h.toNat (0#2 ++ bitField b ++ bitField x).toNat i).isSome = true := by
  obtain ⟨rfl, rfl⟩ | rfl | rfl := hh
  · cases x <;> rfl
  · cases b <;> cases x <;> rfl
  · cases b <;> cases x <;> rfl

theorem openInd_isSome {g : BitVec 3} (m : Ind) (o : BitVec 3) (hg : g = 3 ∨ g = 4 ∨ g = 5) :
    (openInd g.toNat o.toNat m).isSome = true := by
  have ho := o.isLt
  obtain rfl | rfl | rfl := hg <;> interval_cases o.toNat <;> rfl

theorem openIndImm_isSome (gg : BitVec 2) {tt : BitVec 2} (m : Ind) (i : Nibble) (htt : tt = 1 ∨ tt = 2) :
    (openIndImm gg.toNat tt.toNat m i).isSome = true := by
  have hgg := gg.isLt
  obtain rfl | rfl := htt <;> interval_cases gg.toNat <;> rfl

/-- Of the fixed codes those of R147 have no instruction. -/
theorem openFixed_none_iff (n : BitVec 5) : openFixed n.toNat = none ↔ Unassigned n.toNat := by
  rw [← Option.isNone_iff_eq_none]
  unfold Unassigned
  revert n
  decide

theorem none_iff_of_assigned {w : Word} (h : (openWord w).isSome = true) (hw : ¬ Unassigned w.toNat) :
    openWord w = none ↔ Unassigned w.toNat :=
  iff_of_false (Option.ne_none_iff_isSome.2 h) hw

/-- From 0800H on every word is assigned. -/
theorem not_unassigned_of_ge {n : Nat} (h : 0x800 ≤ n) : ¬ Unassigned n := by
  unfold Unassigned
  omega

/-- Besides fixed codes, only words with bits 7 and 6 equal to 11 can be unassigned. -/
theorem not_unassigned_wordExt {h : BitVec 3} {tt : BitVec 2} {b : Bool} (x : Bool) (f : Nibble)
    (htt : tt.toNat < 3) (hpos : 0 < h.toNat ∨ 0 < tt.toNat ∨ b = true) :
    ¬ Unassigned (wordExt h tt b x f).toNat := by
  have hb := b.toNat_le
  have hx := x.toNat_le
  have hf := f.isLt
  rw [← Bool.toNat_eq_one] at hpos
  unfold Unassigned
  rw [wordExt_toNat]
  omega

/-- The part of R147 with bits 7 and 6 equal to 11, in terms of the fields. -/
theorem unassigned_11_iff (h : BitVec 3) (b x : Bool) (f : Nibble) :
    Unassigned (wordExt h 3 b x f).toNat ↔
      h.getLsbD 0 = true ∧ ¬ (h = 1 ∧ b = false ∧ x = false) ∧ ¬ (h = 3 ∧ f.extractLsb' 1 2 = 0) := by
  have hb := b.toNat_le
  have hx := x.toNat_le
  have hf := f.isLt
  have hh := h.isLt
  have hthree : (3 : BitVec 2).toNat = 3 := rfl
  have hh1 : h = 1 ↔ h.toNat = 1 := BitVec.toNat_inj.symm
  have hh3 : h = 3 ↔ h.toNat = 3 := BitVec.toNat_inj.symm
  have hlow : f.extractLsb' 1 2 = 0 ↔ f.toNat / 2 % 4 = 0 := by
    rw [← BitVec.toNat_inj, extract_toNat]
    rfl
  rw [getLsbD_eq_decide, decide_eq_true_iff, hh1, hh3, hlow, ← Bool.toNat_eq_zero, ← Bool.toNat_eq_zero]
  unfold Unassigned
  rw [wordExt_toNat, hthree]
  omega

/-- The decoder opens as nothing exactly the words of R147, format by format. -/
theorem openWord_none_iff (w : Word) : openWord w = none ↔ Unassigned w.toNat := by
  cases wordFormat w with
  | offset n r hlo hhi =>
    refine none_iff_of_assigned (by rw [openWord_wordOffset n r hlo hhi]; rfl) (not_unassigned_of_ge ?_)
    rw [wordOffset_toNat, BitVec.toNat_ofNat]
    omega
  | long a hlo hhi =>
    refine none_iff_of_assigned (by rw [openWord_word12 a hlo hhi]; rfl) (not_unassigned_of_ge ?_)
    rw [word12_toNat, BitVec.toNat_ofNat]
    omega
  | rel cc t d =>
    refine none_iff_of_assigned (by rw [openWord_wordRel]; rfl) (not_unassigned_of_ge ?_)
    rw [wordRel_toNat]
    omega
  | fixed x f =>
    have hword : (wordExt 0 0 false x f).toNat = (bitField x ++ f).toNat := by
      rw [fixed_eq_ofNat, BitVec.toNat_ofNat]
      exact Nat.mod_eq_of_lt (Nat.lt_of_lt_of_le (bitField x ++ f).isLt (by decide))
    rw [openWord_fixed, hword]
    exact openFixed_none_iff (bitField x ++ f)
  | reg x i hh =>
    refine none_iff_of_assigned ?_ (not_unassigned_wordExt x i (by decide) ?_)
    · rw [openWord_reg x i hh]
      exact openReg_isSome x i hh
    · obtain ⟨-, rfl⟩ | rfl | rfl := hh
      · exact .inr (.inr rfl)
      · exact .inl (by decide)
      · exact .inl (by decide)
  | movAImm i =>
    refine none_iff_of_assigned (by rw [openWord_movAImm]; rfl) ?_
    rw [unassigned_11_iff]
    exact fun ⟨_, hmov, _⟩ => hmov ⟨rfl, rfl, rfl⟩
  | ind m o hg =>
    refine none_iff_of_assigned ?_ ?_
    · rw [openWord_wordInd m o hg]
      exact openInd_isSome m o hg
    · rw [wordInd_eq]
      refine not_unassigned_wordExt _ _ (by decide) (.inl ?_)
      obtain rfl | rfl | rfl := hg <;> decide
  | base m f =>
    refine none_iff_of_assigned (by rw [openWord_base]; rfl) ?_
    rw [wordIndImm_eq]
    exact not_unassigned_wordExt _ _ (by decide) (.inl (by cases m <;> decide))
  | indImm gg m i htt =>
    refine none_iff_of_assigned ?_ ?_
    · rw [openWord_wordIndImm gg m i htt]
      exact openIndImm_isSome gg m i htt
    · rw [wordIndImm_eq]
      obtain rfl | rfl := htt <;> exact not_unassigned_wordExt _ _ (by decide) (.inr (.inl (by decide)))
  | mmov n m f =>
    refine none_iff_of_assigned (by rw [openWord_wordMmov]; rfl) ?_
    rw [wordMmov_eq, unassigned_11_iff, (mmov_high n).1]
    exact fun ⟨hodd, _⟩ => Bool.false_ne_true hodd
  | xm m d =>
    refine none_iff_of_assigned (by rw [openWord_wordXm]; cases d <;> rfl) ?_
    rw [wordXm_eq, unassigned_11_iff]
    exact fun ⟨_, _, hxm⟩ => hxm ⟨rfl, by cases m <;> cases d <;> rfl⟩
  | unassigned hodd hmov hxm =>
    exact iff_of_true (openWord_unassigned hodd hmov hxm) ((unassigned_11_iff _ _ _ _).2 ⟨hodd, hmov, hxm⟩)

/-- An unassigned word is refused by name (D11). -/
theorem step_of_openWord_none {s : State} {w : Word} (hq : Quiet s) (hrun : s.halted = false)
    (hw : pmRead s s.pc = some w) (hopen : openWord w = none) : step s = .refused (.undefinedOpcode w) := by
  have hfetch : fetch s = .undefined w := by simp only [fetch, hw, hopen]
  have hfetch' : fetch { s with env := s.env.tail } = .undefined w := (fetch_congr rfl rfl).trans hfetch
  rw [step_of_quiet hq hrun, execute, hfetch']

/-- Settles O4: the fetch of such a word finds no instruction. -/
theorem unassignedWordsRefused : Obligations.UnassignedWordsRefused :=
  ⟨openWord_none_iff, fun _ w hq hrun hw hun => step_of_openWord_none hq hrun hw ((openWord_none_iff w).2 hun)⟩

/-- Settles O1: the decoder evaluated on the words. -/
theorem sampleWordsDecode : Obligations.SampleWordsDecode :=
  ⟨rfl, rfl, rfl, rfl, rfl, rfl, rfl, rfl, rfl, rfl, rfl, rfl, rfl, rfl, rfl, rfl, rfl, rfl, rfl, rfl, rfl, rfl⟩

end Sys2Proof
end

section
/-! What a step makes of a decoded instruction, and which instructions the nX-4/250 refuses. -/

namespace Sys2Proof.Machine

/-! ## A step of a decoded instruction -/

/-- Settles O6: the fetch reads what the decoder reads (`fetch_of_decode`), on the schedule without its head too. -/
theorem stepRunsDecoded : Obligations.StepRunsDecoded := by
  intro s w a i hq hrun hw hdecode
  obtain ⟨v, hfetch, rfl⟩ := fetch_of_decode hw hdecode
  have hfetch' : fetch { s with env := s.env.tail } = .found v := (fetch_congr rfl rfl).trans hfetch
  rw [step_of_quiet hq hrun, execute, hfetch', Instr.cycles, view_toInstr]
  rfl

/-! ## The instructions of the nX-4/300 alone -/

theorem withObj_ne_notProvided (o : Obj) (s : State) (k : DataAddr → State) :
    withObj o s k ≠ .refused .notProvidedOn250 := by
  intro h
  simp only [withObj] at h
  split at h
  · cases h
  · split at h <;> cases h

theorem loadByte_ne_notProvided (m : Ind) (n : Nat) (s : State) (b : Byte) (t : State) :
    loadByte m n s b t ≠ .refused .notProvidedOn250 := by
  intro h
  simp only [loadByte] at h
  split at h <;> cases h

theorem execView_byte_ne_notProvided {v : View} {m : Ind} (s : State) (hm : v.byteOperand = some m) :
    execView v s ≠ .refused .notProvidedOn250 := by
  intro h
  cases v <;> cases hm
  case rom half far =>
    simp only [execView, runRom] at h
    split at h
    · cases h
    · split at h
      · cases h
      · exact loadByte_ne_notProvided _ _ _ _ _ h
  case xmLoad far =>
    simp only [execView, runXmLoad] at h
    split at h
    · cases h
    · exact loadByte_ne_notProvided _ _ _ _ _ h
  case xmStore far =>
    simp only [execView, runXmStore] at h
    split at h
    · cases h
    · split at h <;> cases h

theorem execView_plain_ne_notProvided {v : View} (s : State) (ho : v.operand = none) (hm : v.byteOperand = none)
    (h300 : v.only300 = false) : execView v s ≠ .refused .notProvidedOn250 := by
  intro h
  cases v <;> simp only [View.operand, View.byteOperand, reduceCtorEq] at ho hm
  case halt =>
    simp only [execView, runHalt] at h
    split at h
    · cases h
    · split at h <;> cases h
  case msa w =>
    simp only [execView, runMsa] at h
    split at h <;> cases h
  case fclr f =>
    cases f with
    | flag => cases h300
    | c | z | g => cases h
  case fset f =>
    cases f with
    | flag => cases h300
    | c | z | g => cases h
  case push p => cases p <;> cases h
  case pop p => cases p <;> cases h
  all_goals cases h

/-- No other instruction is refused so: none of the stops of its shape is this one. -/
theorem execView_ne_notProvided {v : View} (s : State) (h300 : v.only300 = false) :
    execView v s ≠ .refused .notProvidedOn250 := by
  obtain ⟨o, ho⟩ | ⟨m, hm⟩ | ⟨ho, hm⟩ := view_shape v
  · obtain ⟨reads, f, htemplate⟩ := template v o ho s
    obtain ⟨k, hk⟩ := htemplate.eq_withObj fun hc => absurd (h300.symm.trans hc) Bool.false_ne_true
    rw [hk]
    exact withObj_ne_notProvided o s k
  · exact execView_byte_ne_notProvided s hm
  · exact execView_plain_ne_notProvided s ho hm h300

theorem only300_of_250 {s : State} (hcore : s.device.core = .nx250) (e : Exec) :
    only300 s e = .refused .notProvidedOn250 := by
  rw [only300, hcore]

/-- MMOV, BMOV, FCLR FLAG and FSET FLAG look at the core before anything else (30_encoding.md R148; D12). -/
theorem execView_notProvided {v : View} {s : State} (hcore : s.device.core = .nx250) (h300 : v.only300 = true) :
    execView v s = .refused .notProvidedOn250 := by
  cases v <;> simp only [View.only300, reduceCtorEq, decide_eq_true_eq] at h300
  case mmov m f n => exact only300_of_250 hcore _
  case bmov m k n => exact only300_of_250 hcore _
  case fclr f =>
    subst h300
    exact only300_of_250 hcore _
  case fset f =>
    subst h300
    exact only300_of_250 hcore _

/-- Settles O57: the four ask for the core, and no other instruction does. -/
theorem refusedOn250 : Obligations.RefusedOn250 := by
  intro i s hcore
  rw [exec_eq_execView]
  cases h300 : i.view.only300 with
  | false => exact iff_of_false (execView_ne_notProvided s h300) (by simp [Instr.providedOn, h300])
  | true => exact iff_of_true (execView_notProvided hcore h300) (by simp [Instr.providedOn, h300])

end Sys2Proof.Machine
end

section
/-! MOV and XCH of 40_transfer.md. The operations that read their location are cases of `onRead_spec`, those that only
write it of `onStore_spec`; both give the frame of R205, and what is left is A, Z and C of each rule. -/

namespace Sys2Proof.Machine

/-! ## The operations -/

/-- What MOV A, obj does (40_transfer.md R200). -/
theorem runMovToA_spec (o : Obj) (s : State) (hr : Ready o s) :
    ∃ t, runMovToA o s = .next t ∧ t.a = dmValue s (objAddr o s) ∧ t.z = decide (t.a.toNat = 0) ∧ t.c = s.c ∧
      DataEffect o true none s t := by
  obtain ⟨t, ht, ha, hz, hc, heffect⟩ := onRead_spec o movToAOut s hr
  refine ⟨t, ht, ha, ?_, hc, heffect⟩
  rw [hz, ha]
  exact decide_nibble_zero _

/-- MOV A, #i4 has no operand that could stop it (40_transfer.md R201). -/
theorem runMovAImm_eq (y : Nibble) (s : State) :
    runMovAImm y s = .next { s with a := y, z := decide (y.toNat = 0), pc := s.pc + 1 } := by
  rw [← decide_nibble_zero y]
  rfl

/-- What MOV obj, A does (40_transfer.md R202). -/
theorem runMovFromA_spec (o : Obj) (s : State) (hr : Ready o s) :
    ∃ t, runMovFromA o s = .next t ∧ t.a = s.a ∧ t.z = s.z ∧ t.c = s.c ∧ DataEffect o false (some s.a) s t :=
  onStore_spec o movFromAOut s hr

/-- What MOV obj, #i4 does (40_transfer.md R203). -/
theorem runMovImm_spec (o : Obj) (y : Nibble) (s : State) (hr : Ready o s) :
    ∃ t, runMovImm o y s = .next t ∧ t.a = y ∧ t.z = decide (y.toNat = 0) ∧ t.c = s.c ∧
      DataEffect o false (some y) s t := by
  obtain ⟨t, ht, ha, hz, hc, heffect⟩ := onStore_spec o (movImmOut y) s hr
  exact ⟨t, ht, ha, hz.trans (decide_nibble_zero y), hc, heffect⟩

/-- What XCH A, obj does (40_transfer.md R204). -/
theorem runXch_spec (o : Obj) (s : State) (hr : Ready o s) :
    ∃ t, runXch o s = .next t ∧ t.a = dmValue s (objAddr o s) ∧ t.z = s.z ∧ t.c = s.c ∧
      DataEffect o true (some s.a) s t :=
  onRead_spec o xchOut s hr

/-! ## The instructions -/

/-- Settles O22: MOV A, obj reads its location, MOV obj, A only writes it. -/
theorem movRuns : Obligations.MovRuns := by
  intro i o s hready
  refine ⟨fun hview => ?_, fun hview => ?_⟩
  · rw [exec_of_view hview]
    exact runMovToA_spec (movObj o) s hready
  · rw [exec_of_view hview]
    exact runMovFromA_spec (movObj o) s hready

/-- Settles O24: MOV obj, #i4 only writes its location. -/
theorem movImmediateRuns : Obligations.MovImmediateRuns := by
  intro i o y s hview hready
  rw [exec_of_view hview]
  exact runMovImm_spec (immObj o) y s hready

/-- Settles O25: XCH A, obj reads its location and then writes it. -/
theorem exchangeRuns : Obligations.ExchangeRuns := by
  intro i o s hview hready
  rw [exec_of_view hview]
  exact runXch_spec (aluObj o) s hready

/-- Settles O23: the word, its length and its cycles are those of the tables; the effect is `runMovAImm_eq`. -/
theorem movImmediateToARuns : Obligations.MovImmediateToARuns :=
  fun y s => ⟨rfl, rfl, rfl, fun _ => rfl, runMovAImm_eq y s⟩

end Sys2Proof.Machine
end

section
/-! Rotates, increments and decrements of 41_rotate_incdec.md. ROL, ROR, INC and DEC are cases of
`onRead_resultOut_spec`, and what is left is the arithmetic of each result and its C. INCB and INCW count a pair and RA
up as one number. -/

namespace Sys2Proof.Machine

/-! ## The results as numbers -/

/-- Bits 2 to 0 move up and C comes in below (41_rotate_incdec.md R230). -/
theorem rolResult_toNat (v : Nibble) (c : Bool) :
    (v.extractLsb' 0 3 ++ BitVec.ofBool c).toNat = (2 * v.toNat + c.toNat) % 16 := by
  rw [append_toNat, extract_toNat, BitVec.toNat_ofBool]
  have hc := c.toNat_lt
  omega

/-- Bits 3 to 1 move down and C comes in above (41_rotate_incdec.md R231). -/
theorem rorResult_toNat (v : Nibble) (c : Bool) :
    (BitVec.ofBool c ++ v.extractLsb' 1 3).toNat = v.toNat / 2 + 8 * c.toNat := by
  rw [append_toNat, extract_toNat, BitVec.toNat_ofBool]
  have hv := v.isLt
  omega

/-- The bit ROL moves to C. -/
theorem nibble_getLsbD_three (v : Nibble) : v.getLsbD 3 = decide (8 ≤ v.toNat) := by
  rw [getLsbD_eq_decide, decide_eq_decide]
  have hv := v.isLt
  omega

/-- The bit ROR moves to C. -/
theorem nibble_getLsbD_zero (v : Nibble) : v.getLsbD 0 = decide (v.toNat % 2 = 1) := by
  rw [getLsbD_eq_decide, pow_zero, Nat.div_one]

theorem nibble_succ_toNat (v : Nibble) : (v + 1).toNat = (v.toNat + 1) % 16 := BitVec.toNat_add v 1

theorem nibble_pred_toNat (v : Nibble) : (v - 1).toNat = (v.toNat + 15) % 16 := by
  rw [BitVec.toNat_sub, Nat.add_comm]
  rfl

/-! ## The operations on one nibble -/

/-- What an instruction does that reads its location and gives it, A and Z the result `r` and C the carry `c`. -/
theorem onRead_resultOut_spec {o : Obj} {f : AluIn → AluOut} {s : State} {r : Nibble} {c : Bool} (hr : Ready o s)
    (hf : f { v := dmValue s (objAddr o s), a := s.a, z := s.z, c := s.c } = resultOut r c) :
    ∃ t, onRead o f s = .next t ∧ t.a = r ∧ t.z = decide (t.a.toNat = 0) ∧ t.c = c ∧
      DataEffect o true (some t.a) s t := by
  obtain ⟨t, ht, hout⟩ := onRead_spec o f s hr
  rw [hf] at hout
  obtain ⟨ha, hz, hc, heffect⟩ := hout
  rw [resultOut] at ha hz hc heffect
  subst ha
  exact ⟨t, ht, rfl, hz.trans (decide_nibble_zero _), hc, heffect⟩

/-- What ROL obj does (41_rotate_incdec.md R230). -/
theorem runRol_spec (o : Obj) (s : State) (hr : Ready o s) :
    let v := (dmValue s (objAddr o s)).toNat
    ∃ t, runRol o s = .next t ∧ t.a.toNat = (2 * v + s.c.toNat) % 16 ∧ t.z = decide (t.a.toNat = 0) ∧
      t.c = decide (8 ≤ v) ∧ DataEffect o true (some t.a) s t := by
  obtain ⟨t, ht, ha, hz, hc, heffect⟩ := onRead_resultOut_spec (f := rolOut) hr rfl
  exact ⟨t, ht, ha ▸ rolResult_toNat _ _, hz, hc.trans (nibble_getLsbD_three _), heffect⟩

/-- What ROR obj does (41_rotate_incdec.md R231). -/
theorem runRor_spec (o : Obj) (s : State) (hr : Ready o s) :
    let v := (dmValue s (objAddr o s)).toNat
    ∃ t, runRor o s = .next t ∧ t.a.toNat = v / 2 + 8 * s.c.toNat ∧ t.z = decide (t.a.toNat = 0) ∧
      t.c = decide (v % 2 = 1) ∧ DataEffect o true (some t.a) s t := by
  obtain ⟨t, ht, ha, hz, hc, heffect⟩ := onRead_resultOut_spec (f := rorOut) hr rfl
  exact ⟨t, ht, ha ▸ rorResult_toNat _ _, hz, hc.trans (nibble_getLsbD_zero _), heffect⟩

/-- What INC obj does (41_rotate_incdec.md R232): the result is 0 exactly at the wrap. -/
theorem runInc_spec (o : Obj) (s : State) (hr : Ready o s) :
    let v := (dmValue s (objAddr o s)).toNat
    ∃ t, runInc o s = .next t ∧ t.a.toNat = (v + 1) % 16 ∧ t.z = decide (v = 15) ∧ t.c = decide (v = 15) ∧
      DataEffect o true (some t.a) s t := by
  intro v
  have hv : v < 16 := (dmValue s (objAddr o s)).isLt
  obtain ⟨t, ht, ha, hz, hc, heffect⟩ := onRead_resultOut_spec (f := incOut) hr rfl
  have hresult : t.a.toNat = (v + 1) % 16 := ha ▸ nibble_succ_toNat _
  refine ⟨t, ht, hresult, ?_, hc.trans (decide_eq_decide.2 BitVec.toNat_inj.symm), heffect⟩
  rw [hz, hresult, decide_eq_decide]
  omega

/-- What DEC obj does (41_rotate_incdec.md R233): the borrow is at 0, the result is 0 at 1. -/
theorem runDec_spec (o : Obj) (s : State) (hr : Ready o s) :
    let v := (dmValue s (objAddr o s)).toNat
    ∃ t, runDec o s = .next t ∧ t.a.toNat = (v + 15) % 16 ∧ t.z = decide (v = 1) ∧ t.c = decide (v = 0) ∧
      DataEffect o true (some t.a) s t := by
  intro v
  have hv : v < 16 := (dmValue s (objAddr o s)).isLt
  obtain ⟨t, ht, ha, hz, hc, heffect⟩ := onRead_resultOut_spec (f := decOut) hr rfl
  have hresult : t.a.toNat = (v + 15) % 16 := ha ▸ nibble_pred_toNat _
  refine ⟨t, ht, hresult, ?_, hc.trans (decide_eq_decide.2 BitVec.toNat_inj.symm), heffect⟩
  rw [hz, hresult, decide_eq_decide]
  omega

/-! ## The pairs and RA -/

/-- What INCB does (41_rotate_incdec.md R234): the pair counts up as one byte, and G says that it was at its end. -/
theorem runIncb_spec (p : Pair) (s : State) :
    let t := advance 1 (postInc p 1 s)
    runIncb p s = .next t ∧ (pairValue p t).toNat = ((pairValue p s).toNat + 1) % 256 ∧
      t.g = decide ((pairValue p s).toNat = 255) := by
  refine ⟨rfl, ?_, ?_⟩
  · rw [pairValue_advance, pairValue_postInc, BitVec.toNat_add]
    rfl
  · rw [advance_g, postInc_g, decide_eq_decide]
    have hpair := (pairValue p s).isLt
    omega

/-- Two nibbles side by side are at their end exactly if both are. -/
theorem nibbles_eq_end_iff (hi lo : Nibble) : 16 * hi.toNat + lo.toNat = 255 ↔ hi.toNat = 15 ∧ lo.toNat = 15 := by
  have hhi := hi.isLt
  have hlo := lo.isLt
  omega

/-- `setRa` writes what `raValue` reads (10_state.md R30). -/
@[simp] theorem raValue_setRa (t : Word) (s : State) : raValue (setRa t s) = t := by
  apply BitVec.eq_of_toNat_eq
  simp only [raValue_toNat, setRa_ra0, setRa_ra1, setRa_ra2, setRa_ra3, extract_toNat]
  have ht := t.isLt
  omega

/-- What INCW RA does (41_rotate_incdec.md R235): RA counts up as one word, and G says that it came to 0. -/
theorem runIncw_spec (s : State) :
    let t := advance 1 { setRa (raValue s + 1) s with g := decide (raValue s + 1 = 0) }
    runIncw s = .next t ∧ (raValue t).toNat = ((raValue s).toNat + 1) % 65536 ∧ t.g = decide ((raValue t).toNat = 0) := by
  intro t
  have hvalue : raValue t = raValue s + 1 := raValue_setRa (raValue s + 1) s
  refine ⟨rfl, ?_, ?_⟩
  · rw [hvalue, BitVec.toNat_add]
    rfl
  · rw [hvalue]
    exact decide_eq_decide.2 BitVec.toNat_inj.symm

/-! ## The instructions -/

/-- Settles O26: both rotate the five bits of C and the nibble, ROL up and ROR down. -/
theorem rotatesRun : Obligations.RotatesRun := by
  intro i o s hready
  refine ⟨fun hview => ?_, fun hview => ?_⟩
  · rw [exec_of_view hview]
    exact runRol_spec (aluObj o) s hready
  · rw [exec_of_view hview]
    exact runRor_spec (aluObj o) s hready

/-- Settles O27: INC and DEC are `runInc_spec` and `runDec_spec` in every operand form. -/
theorem incrementDecrementRun : Obligations.IncrementDecrementRun := by
  intro i o s hready
  refine ⟨fun hview => ?_, fun hview => ?_⟩
  · rw [exec_of_view hview]
    exact runInc_spec (aluObj o) s hready
  · rw [exec_of_view hview]
    exact runDec_spec (aluObj o) s hready

/-- Settles O28: words and cycles are those of the tables; the effect is `runIncb_spec` and `runIncw_spec`, with the
pairs and RA written in their nibbles. -/
theorem pairAndRaIncrementsRun : Obligations.PairAndRaIncrementsRun := by
  intro s
  refine ⟨rfl, rfl, rfl, ?tables, ?hl, ?xy, ?ra⟩
  case tables =>
    intro i hi
    simp only [List.mem_cons, List.not_mem_nil, or_false] at hi
    rcases hi with rfl | rfl | rfl <;> exact ⟨rfl, rfl, fun _ => rfl⟩
  case hl =>
    obtain ⟨hnext, hvalue, hg⟩ := runIncb_spec .hl s
    simp only [pairValue_toNat, nibbles_eq_end_iff] at hvalue hg
    exact ⟨_, hnext, rfl, hvalue, hg⟩
  case xy =>
    obtain ⟨hnext, hvalue, hg⟩ := runIncb_spec .xy s
    simp only [pairValue_toNat, nibbles_eq_end_iff] at hvalue hg
    exact ⟨_, hnext, rfl, hvalue, hg⟩
  case ra =>
    obtain ⟨hnext, hvalue, hg⟩ := runIncw_spec s
    simp only [raValue_toNat] at hvalue hg
    exact ⟨_, hnext, rfl, hvalue, hg⟩

end Sys2Proof.Machine
end

section
/-! Additions and subtractions of 42_arithmetic.md. Each reads its location and leaves a result there and in A, with Z
and C of it. ADD, ADC, SUB and SBC have one result (`onRead_number_spec`); the decimal and base-n digits choose between
two results by the carry or borrow they set (`onRead_choice_spec`). What is left in each case is the number a result
is. -/

namespace Sys2Proof.Machine

/-! ## The results as numbers -/

/-- A flag as a number of the model is `Bool.toNat`. -/
theorem bit_eq_toNat (b : Bool) : bit b = b.toNat := by
  cases b <;> rfl

theorem nibble_ofNat_toNat {t n : Nat} (h : t % 16 = n) : (BitVec.ofNat 4 t).toNat = n :=
  (BitVec.toNat_ofNat t 4).trans h

/-- The nibble of a difference, which may be below 0 (42_arithmetic.md R265). -/
theorem nibble_ofInt_toNat {t : Int} {n : Nat} (h : t % 16 = n) : (BitVec.ofInt 4 t).toNat = n := by
  rw [BitVec.toNat_ofInt]
  exact (congrArg Int.toNat h).trans (Int.toNat_natCast n)

/-! ## The operations -/

/-- What an instruction does that reads its location and gives it and A a result which is the number `n`, with C set
exactly if `p` holds. -/
theorem onRead_number_spec {o : Obj} {f : AluIn → AluOut} {s : State} {r : Nibble} {c : Bool} {n : Nat} {p : Prop}
    [Decidable p] (hr : Ready o s)
    (hf : f { v := dmValue s (objAddr o s), a := s.a, z := s.z, c := s.c } = resultOut r c)
    (hn : r.toNat = n) (hc : c = decide p) :
    ∃ t, onRead o f s = .next t ∧ t.a.toNat = n ∧ t.z = decide (t.a.toNat = 0) ∧ t.c = decide p ∧
      DataEffect o true (some t.a) s t := by
  obtain ⟨t, ht, ha, hz, hcarry, heffect⟩ := onRead_resultOut_spec hr hf
  exact ⟨t, ht, ha ▸ hn, hz, hcarry.trans hc, heffect⟩

/-- What an instruction does that gives its location and A one result and sets C if `p` holds, and gives them another
and clears C if not (42_arithmetic.md R263, R264, R268, R269). -/
theorem onRead_choice_spec {o : Obj} {f : AluIn → AluOut} {s : State} {q p : Prop} [Decidable q] [Decidable p]
    {r r' : Nibble} {n n' : Nat} (hr : Ready o s)
    (hf : f { v := dmValue s (objAddr o s), a := s.a, z := s.z, c := s.c } =
      if q then resultOut r true else resultOut r' false)
    (hqp : q ↔ p) (hn : p → r.toNat = n) (hn' : ¬ p → r'.toNat = n') :
    ∃ t, onRead o f s = .next t ∧ t.a.toNat = (if p then n else n') ∧ t.z = decide (t.a.toNat = 0) ∧ t.c = decide p ∧
      DataEffect o true (some t.a) s t := by
  by_cases hp : p
  · rw [if_pos (hqp.2 hp)] at hf
    exact onRead_number_spec hr hf ((hn hp).trans (if_pos hp).symm) (decide_eq_true hp).symm
  · rw [if_neg (mt hqp.1 hp)] at hf
    exact onRead_number_spec hr hf ((hn' hp).trans (if_neg hp).symm) (decide_eq_false hp).symm

/-- A sum with a carry in (42_arithmetic.md R260 to R262). -/
theorem onRead_addOut_spec {o : Obj} {f : AluIn → AluOut} {s : State} {y : Nibble} {cin : Nat} (hr : Ready o s)
    (hf : let i : AluIn := { v := dmValue s (objAddr o s), a := s.a, z := s.z, c := s.c }
      f i = addOut y cin i) :
    let v := (dmValue s (objAddr o s)).toNat
    ∃ t, onRead o f s = .next t ∧ t.a.toNat = (v + y.toNat + cin) % 16 ∧ t.z = decide (t.a.toNat = 0) ∧
      t.c = decide (15 < v + y.toNat + cin) ∧ DataEffect o true (some t.a) s t :=
  onRead_number_spec hr hf (nibble_ofNat_toNat rfl) rfl

/-- A difference with a borrow in, so that at most 16 is taken off (42_arithmetic.md R265 to R267). -/
theorem onRead_subOut_spec {o : Obj} {f : AluIn → AluOut} {s : State} {y : Nibble} {cin : Nat} (hr : Ready o s)
    (hcin : cin ≤ 1)
    (hf : let i : AluIn := { v := dmValue s (objAddr o s), a := s.a, z := s.z, c := s.c }
      f i = subOut y cin i) :
    let v := (dmValue s (objAddr o s)).toNat
    ∃ t, onRead o f s = .next t ∧ t.a.toNat = (v + 16 - (y.toNat + cin)) % 16 ∧ t.z = decide (t.a.toNat = 0) ∧
      t.c = decide (v < y.toNat + cin) ∧ DataEffect o true (some t.a) s t := by
  intro v
  have hy := y.isLt
  refine onRead_number_spec hr hf (nibble_ofInt_toNat ?_) (decide_eq_decide.2 ?_)
  all_goals
    dsimp only
    omega

/-- What ADC obj, A does (42_arithmetic.md R262). -/
theorem runAdc_spec (o : Obj) (s : State) (hr : Ready o s) :
    let v := (dmValue s (objAddr o s)).toNat
    ∃ t, runAdc o s = .next t ∧ t.a.toNat = (v + s.a.toNat + s.c.toNat) % 16 ∧ t.z = decide (t.a.toNat = 0) ∧
      t.c = decide (15 < v + s.a.toNat + s.c.toNat) ∧ DataEffect o true (some t.a) s t := by
  rw [← bit_eq_toNat]
  exact onRead_addOut_spec hr rfl

/-- What SBC obj, A does (42_arithmetic.md R267). -/
theorem runSbc_spec (o : Obj) (s : State) (hr : Ready o s) :
    let v := (dmValue s (objAddr o s)).toNat
    ∃ t, runSbc o s = .next t ∧ t.a.toNat = (v + 16 - (s.a.toNat + s.c.toNat)) % 16 ∧
      t.z = decide (t.a.toNat = 0) ∧ t.c = decide (v < s.a.toNat + s.c.toNat) ∧
      DataEffect o true (some t.a) s t := by
  have hborrow : bit s.c ≤ 1 := (bit_eq_toNat s.c).trans_le s.c.toNat_le
  rw [← bit_eq_toNat]
  exact onRead_subOut_spec hr hborrow rfl

/-- What ADCD obj, A does (42_arithmetic.md R263; D16). -/
theorem runAdcd_spec (o : Obj) (s : State) (hr : Ready o s) :
    let v := (dmValue s (objAddr o s)).toNat
    let n := s.a.toNat + s.c.toNat
    ∃ t, runAdcd o s = .next t ∧ t.a.toNat = (if 9 < v + n then (v + n + 6) % 16 else v + n) ∧
      t.z = decide (t.a.toNat = 0) ∧ t.c = decide (9 < v + n) ∧ DataEffect o true (some t.a) s t := by
  intro v n
  have hbit := bit_eq_toNat s.c
  refine onRead_choice_spec (f := adcdOut) hr rfl ?_ (fun hcarry => nibble_ofNat_toNat ?_)
    (fun hdigit => nibble_ofNat_toNat ?_)
  all_goals
    dsimp only
    omega

/-- What SBCD obj, A does (42_arithmetic.md R268; D16): a difference is -16 at least, so that 26 more is no borrow. -/
theorem runSbcd_spec (o : Obj) (s : State) (hr : Ready o s) :
    let v := (dmValue s (objAddr o s)).toNat
    let n := s.a.toNat + s.c.toNat
    ∃ t, runSbcd o s = .next t ∧ t.a.toNat = (if v < n then (v + 26 - n) % 16 else v - n) ∧
      t.z = decide (t.a.toNat = 0) ∧ t.c = decide (v < n) ∧ DataEffect o true (some t.a) s t := by
  intro v n
  have hbit := bit_eq_toNat s.c
  have hv : v < 16 := (dmValue s (objAddr o s)).isLt
  have ha := s.a.isLt
  have hc := s.c.toNat_le
  refine onRead_choice_spec (f := sbcdOut) hr rfl ?_ (fun hborrow => nibble_ofInt_toNat ?_)
    (fun hdigit => nibble_ofInt_toNat ?_)
  all_goals
    dsimp only
    omega

/-- What ADCJ obj, n does for a base (42_arithmetic.md R264; D14). -/
theorem runAdcj_spec (o : Obj) {n : Nat} (s : State) (hbase : 2 ≤ n ∧ n ≤ 16) (hr : Ready o s) :
    let v := (dmValue s (objAddr o s)).toNat
    ∃ t, runAdcj o n s = .next t ∧
      t.a.toNat = (if n ≤ v + s.c.toNat then v + s.c.toNat - n else v + s.c.toNat) ∧
      t.z = decide (t.a.toNat = 0) ∧ t.c = decide (n ≤ v + s.c.toNat) ∧ DataEffect o true (some t.a) s t := by
  intro v
  have hbit := bit_eq_toNat s.c
  have hv : v < 16 := (dmValue s (objAddr o s)).isLt
  have hc := s.c.toNat_le
  refine onRead_choice_spec (f := adcjOut n) hr rfl ?_ (fun hcarry => nibble_ofNat_toNat ?_)
    (fun hdigit => nibble_ofNat_toNat ?_)
  all_goals
    dsimp only
    omega

/-- What SBCJ obj, n does for a base (42_arithmetic.md R269; D15): the borrow is from 0 alone, and leaves n - 1. -/
theorem runSbcj_spec (o : Obj) {n : Nat} (s : State) (hbase : 2 ≤ n ∧ n ≤ 16) (hr : Ready o s) :
    let v := (dmValue s (objAddr o s)).toNat
    ∃ t, runSbcj o n s = .next t ∧ t.a.toNat = (if v < s.c.toNat then n - 1 else v - s.c.toNat) ∧
      t.z = decide (t.a.toNat = 0) ∧ t.c = decide (v < s.c.toNat) ∧ DataEffect o true (some t.a) s t := by
  intro v
  have hbit := bit_eq_toNat s.c
  have hv : v < 16 := (dmValue s (objAddr o s)).isLt
  refine onRead_choice_spec (f := sbcjOut n) hr rfl ?_ (fun hborrow => nibble_ofNat_toNat ?_)
    (fun hdigit => nibble_ofInt_toNat ?_)
  · dsimp only
    omega
  · omega
  · dsimp only
    omega

/-! ## The instructions -/

/-- Settles O29: ADD is the sum without a carry in, ADC that with C. -/
theorem addRuns : Obligations.AddRuns := by
  intro i o s hready
  refine ⟨fun hview => ?_, fun hview => ?_⟩
  · rw [exec_of_view hview]
    exact onRead_addOut_spec (cin := 0) hready rfl
  · rw [exec_of_view hview]
    exact runAdc_spec (aluObj o) s hready

/-- Settles O30: the sum and the difference with the immediate in A's place, without a carry or borrow in. -/
theorem addSubtractImmediateRun : Obligations.AddSubtractImmediateRun := by
  intro i o y s hready
  refine ⟨fun hview => ?_, fun hview => ?_⟩
  · rw [exec_of_view hview]
    exact onRead_addOut_spec (cin := 0) hready rfl
  · rw [exec_of_view hview]
    exact onRead_subOut_spec (cin := 0) hready (Nat.zero_le 1) rfl

/-- Settles O31: SUB is the difference without a borrow in, SBC that with C. -/
theorem subtractRuns : Obligations.SubtractRuns := by
  intro i o s hready
  refine ⟨fun hview => ?_, fun hview => ?_⟩
  · rw [exec_of_view hview]
    exact onRead_subOut_spec (cin := 0) hready (Nat.zero_le 1) rfl
  · rw [exec_of_view hview]
    exact runSbc_spec (aluObj o) s hready

/-- Settles O32: ADCD and SBCD are `runAdcd_spec` and `runSbcd_spec` in every operand form. -/
theorem decimalRuns : Obligations.DecimalRuns := by
  intro i o s hready
  refine ⟨fun hview => ?_, fun hview => ?_⟩
  · rw [exec_of_view hview]
    exact runAdcd_spec (aluObj o) s hready
  · rw [exec_of_view hview]
    exact runSbcd_spec (aluObj o) s hready

/-- The base of a well-formed ADCJ or SBCJ (42_arithmetic.md R264, R269). -/
theorem base_of_wellFormed {i : Instr} {op : BaseOp} {o : ImmObj} {n : Nat} (hwf : i.wellFormed = true)
    (hview : i.view = .baseN op o n) : 2 ≤ n ∧ n ≤ 16 := by
  rw [Instr.wellFormed, hview] at hwf
  obtain ⟨_, hbase⟩ := of_decide_eq_true hwf
  exact hbase

/-- Settles O33: ADCJ and SBCJ are `runAdcj_spec` and `runSbcj_spec`, the base being one the instruction can name. -/
theorem baseAdjustRuns : Obligations.BaseAdjustRuns := by
  intro i o n s hwf hready
  refine ⟨fun hview => ?_, fun hview => ?_⟩
  · rw [exec_of_view hview]
    exact runAdcj_spec (immObj o) s (base_of_wellFormed hwf hview) hready
  · rw [exec_of_view hview]
    exact runSbcj_spec (immObj o) s (base_of_wellFormed hwf hview) hready

end Sys2Proof.Machine
end

section
/-! Comparisons and logical operations of 43_compare_logical.md, with the masks of 44_mask_bit.md that compute the same.
The operand on the right is A or the immediate: one lemma per operation speaks of both. A comparison is
`onRead_cmpOut_spec`; AND, OR and XOR are cases of `onRead_bits_spec`, and what is left is the rule of one bit. -/

namespace Sys2Proof.Machine

/-! ## The operations -/

/-- What a comparison with `y` does (43_compare_logical.md R300, R301). -/
theorem onRead_cmpOut_spec {o : Obj} {f : AluIn → AluOut} {s : State} {y : Nibble} (hr : Ready o s)
    (hf : let i : AluIn := { v := dmValue s (objAddr o s), a := s.a, z := s.z, c := s.c }
      f i = cmpOut y i) :
    let v := (dmValue s (objAddr o s)).toNat
    ∃ t, onRead o f s = .next t ∧ t.a = s.a ∧ t.z = decide (v = y.toNat) ∧ t.c = decide (v < y.toNat) ∧
      DataEffect o true none s t := by
  obtain ⟨t, ht, hout⟩ := onRead_spec o f s hr
  rw [hf] at hout
  obtain ⟨ha, hz, hc, heffect⟩ := hout
  exact ⟨t, ht, ha, hz.trans (decide_eq_decide.2 BitVec.toNat_inj.symm), hc, heffect⟩

/-- What an instruction does that reads its location, gives it and A a result with the bits `b`, and keeps C. -/
theorem onRead_bits_spec {o : Obj} {f : AluIn → AluOut} {s : State} {r : Nibble} {b : Fin 4 → Bool} (hr : Ready o s)
    (hf : f { v := dmValue s (objAddr o s), a := s.a, z := s.z, c := s.c } = resultOut r s.c)
    (hb : ∀ k : Fin 4, r.getLsbD k = b k) :
    ∃ t, onRead o f s = .next t ∧ (∀ k : Fin 4, t.a.getLsbD k = b k) ∧ t.z = decide (t.a.toNat = 0) ∧ t.c = s.c ∧
      DataEffect o true (some t.a) s t := by
  obtain ⟨t, ht, rfl, hz, hc, heffect⟩ := onRead_resultOut_spec hr hf
  exact ⟨t, ht, hb, hz, hc, heffect⟩

/-- AND and MCLR with `y`: a 1 of `y` keeps the bit (43_compare_logical.md R302, R303; 44_mask_bit.md R332). -/
theorem onRead_andOut_spec {o : Obj} {f : AluIn → AluOut} {s : State} {y : Nibble} (hr : Ready o s)
    (hf : let i : AluIn := { v := dmValue s (objAddr o s), a := s.a, z := s.z, c := s.c }
      f i = andOut y i) :
    let v := dmValue s (objAddr o s)
    ∃ t, onRead o f s = .next t ∧ (∀ k : Fin 4, t.a.getLsbD k = (v.getLsbD k && y.getLsbD k)) ∧
      t.z = decide (t.a.toNat = 0) ∧ t.c = s.c ∧ DataEffect o true (some t.a) s t :=
  onRead_bits_spec hr hf fun _ => BitVec.getLsbD_and

/-- OR and MSET with `y`: a 1 of `y` sets the bit (43_compare_logical.md R304, R305; 44_mask_bit.md R333). -/
theorem onRead_orOut_spec {o : Obj} {f : AluIn → AluOut} {s : State} {y : Nibble} (hr : Ready o s)
    (hf : let i : AluIn := { v := dmValue s (objAddr o s), a := s.a, z := s.z, c := s.c }
      f i = orOut y i) :
    let v := dmValue s (objAddr o s)
    ∃ t, onRead o f s = .next t ∧ (∀ k : Fin 4, t.a.getLsbD k = (v.getLsbD k || y.getLsbD k)) ∧
      t.z = decide (t.a.toNat = 0) ∧ t.c = s.c ∧ DataEffect o true (some t.a) s t :=
  onRead_bits_spec hr hf fun _ => BitVec.getLsbD_or

/-- XOR and MNOT with `y`: a 1 of `y` reverses the bit (43_compare_logical.md R306, R307; 44_mask_bit.md R334). -/
theorem onRead_xorOut_spec {o : Obj} {f : AluIn → AluOut} {s : State} {y : Nibble} (hr : Ready o s)
    (hf : let i : AluIn := { v := dmValue s (objAddr o s), a := s.a, z := s.z, c := s.c }
      f i = xorOut y i) :
    let v := dmValue s (objAddr o s)
    ∃ t, onRead o f s = .next t ∧ (∀ k : Fin 4, t.a.getLsbD k = (v.getLsbD k ^^ y.getLsbD k)) ∧
      t.z = decide (t.a.toNat = 0) ∧ t.c = s.c ∧ DataEffect o true (some t.a) s t :=
  onRead_bits_spec hr hf fun _ => BitVec.getLsbD_xor

/-! ## The instructions -/

/-- Settles O34: both are `onRead_cmpOut_spec`, with A and with the immediate. -/
theorem compareRuns : Obligations.CompareRuns := by
  refine ⟨fun i o s hview hready => ?_, fun i o y s hview hready => ?_⟩
  · rw [exec_of_view hview]
    exact onRead_cmpOut_spec hready rfl
  · rw [exec_of_view hview]
    exact onRead_cmpOut_spec hready rfl

/-- Settles O35: one case per operation, with A on the right. -/
theorem logicalRuns : Obligations.LogicalRuns := by
  intro i op o s hview hop hready
  rw [exec_of_view hview]
  simp only [List.mem_cons, List.not_mem_nil, or_false] at hop
  rcases hop with rfl | rfl | rfl
  · exact onRead_andOut_spec hready rfl
  · exact onRead_orOut_spec hready rfl
  · exact onRead_xorOut_spec hready rfl

/-- Settles O36: one case per operation, a mask being the immediate of the logical operation it computes. -/
theorem logicalImmediateRuns : Obligations.LogicalImmediateRuns := by
  intro i op o y s hview hop hready
  rw [exec_of_view hview]
  simp only [List.mem_cons, List.not_mem_nil, or_false] at hop
  rcases hop with rfl | rfl | rfl | rfl | rfl | rfl
  · exact onRead_andOut_spec hready rfl
  · exact onRead_andOut_spec hready rfl
  · exact onRead_orOut_spec hready rfl
  · exact onRead_orOut_spec hready rfl
  · exact onRead_xorOut_spec hready rfl
  · exact onRead_xorOut_spec hready rfl

end Sys2Proof.Machine
end

section
/-! Masks and bits of 44_mask_bit.md. An operation on one bit computes what the operation with the selector of the bit
as mask computes (`BitOp.primary`): this gives R341, and the rules of BCLR, BSET, BNOT and BMOV are those of the mask,
read bit by bit. MCLR, MSET and MNOT stand with the logical operations. -/

namespace Sys2Proof.Machine

/-! ## The selector of a bit -/

/-- The selector has its one bit alone (30_encoding.md R145). -/
theorem oneHot_getLsbD (n k : Fin 4) : (oneHot n).getLsbD k = decide (k = n) := by
  revert n k
  decide

theorem oneCold_getLsbD (n k : Fin 4) : (oneCold n).getLsbD k = !decide (k = n) := by
  rw [oneCold, BitVec.getLsbD_not, oneHot_getLsbD, decide_eq_true k.isLt, Bool.true_and]

/-- A nibble with a bit set is not 0, so that Z of BSET is that of its result (44_mask_bit.md R338; D17). -/
theorem or_oneHot_ne_zero (v : Nibble) (n : Fin 4) : v ||| oneHot n ≠ 0 := by
  intro hzero
  have hbit : (v ||| oneHot n).getLsbD n = true := by
    rw [BitVec.getLsbD_or, oneHot_getLsbD, decide_eq_true rfl, Bool.or_true]
  rw [hzero, BitVec.ofNat_eq_ofNat, BitVec.getLsbD_zero] at hbit
  cases hbit

/-- A flag moved to bit `k` is the selector of the bit or 0. -/
theorem bit_shiftLeft (b : Bool) (k : Fin 4) : BitVec.ofNat 4 (bit b) <<< k.val = if b then oneHot k else 0 := by
  cases b with
  | false => exact BitVec.zero_shiftLeft k.val
  | true => rfl

/-! ## What a mask tests and what it moves -/

/-- The condition of MTST, bit by bit (44_mask_bit.md R330, R331). -/
theorem and_ne_mask_iff (v m : Nibble) :
    v &&& m ≠ m ↔ ∃ k : Fin 4, m.getLsbD k = true ∧ v.getLsbD k = false := by
  constructor
  · intro hne
    by_contra hnone
    refine hne (BitVec.eq_of_getLsbD_eq fun k hk => ?_)
    have hbit : m.getLsbD k = true → v.getLsbD k = true := fun hm =>
      Bool.eq_true_of_not_eq_false fun hv => hnone ⟨⟨k, hk⟩, hm, hv⟩
    rw [BitVec.getLsbD_and, Bool.and_eq_right_iff_imp]
    exact hbit
  · rintro ⟨k, hm, hv⟩ heq
    have hbit : (v &&& m).getLsbD k = true := heq.symm ▸ hm
    rw [BitVec.getLsbD_and, hv] at hbit
    cases hbit

/-- With the selector of bit `n` as mask, a tested bit is 0 exactly if bit `n` is. -/
theorem decide_and_ne_oneHot (v : Nibble) (n : Fin 4) : decide (v &&& oneHot n ≠ oneHot n) = !v.getLsbD n := by
  rw [Bool.eq_iff_iff, decide_eq_true_iff, and_ne_mask_iff, Bool.not_eq_true']
  simp only [oneHot_getLsbD, decide_eq_true_eq, exists_eq_left]

/-- What MMOV leaves, bit by bit (44_mask_bit.md R335; D19). -/
theorem mmovResult_getLsbD (v m : Nibble) (b : Bool) (k : Fin 4) :
    ((v &&& ~~~m) ||| (if b then m else 0)).getLsbD k = if m.getLsbD k then b else v.getLsbD k := by
  have hmoved : (if b then m else 0).getLsbD k = (b && m.getLsbD k) := by
    cases b with
    | false => exact BitVec.getLsbD_zero
    | true => rfl
  rw [BitVec.getLsbD_or, BitVec.getLsbD_and, BitVec.getLsbD_not, decide_eq_true k.isLt, Bool.true_and, hmoved]
  cases m.getLsbD k with
  | false => simp
  | true => simp

/-! ## An operation on one bit is one with a mask -/

theorem btstOut_eq (n : Fin 4) : btstOut n = mtstOut (oneHot n) := by
  funext i
  rw [btstOut, mtstOut, decide_and_ne_oneHot]

theorem bsetOut_eq (n : Fin 4) : bsetOut n = orOut (oneHot n) := by
  funext i
  rw [orOut, resultOut, decide_eq_false (or_oneHot_ne_zero i.v n)]
  rfl

theorem bmovOut_eq (k n : Fin 4) : bmovOut k n = mmovOut (oneHot k) n := by
  funext i
  rw [bmovOut, bit_shiftLeft]
  rfl

/-- The operation on one bit and its primary spelling have one meaning (44_mask_bit.md R341). -/
theorem execBit_primary (op : BitOp) (o : ImmObj) (n : Fin 4) (s : State) :
    execView (op.primary o n) s = execBit op (immObj o) n s := by
  cases op with
  | btst => exact congrArg (onRead (immObj o) · s) (btstOut_eq n).symm
  | bclr => rfl
  | bset => exact congrArg (onRead (immObj o) · s) (bsetOut_eq n).symm
  | bnot => rfl

/-- A BMOV is an MMOV, on either core (44_mask_bit.md R341). -/
theorem runBmov_eq (f : IndFixed) (k n : Fin 4) (s : State) : runBmov f k n s = runMmov f (oneHot k) n s := by
  rw [runBmov, runMmov, bmovOut_eq]

/-- An operation and its primary spelling have one meaning on every state (30_encoding.md R146). -/
theorem execView_primary (v : View) (s : State) : execView v.primary s = execView v s := by
  cases v with
  | imm op o i => cases op <;> rfl
  | bit op o n => exact execBit_primary op o n s
  | bmov f k n => exact (runBmov_eq f k n s).symm
  | branch b d => cases b <;> rfl
  | _ => rfl

/-! ## The operations -/

/-- What a test with the mask `m` does (44_mask_bit.md R330, R331). -/
theorem onRead_mtstOut_spec {o : Obj} {f : AluIn → AluOut} {s : State} {m : Nibble} (hr : Ready o s)
    (hf : let i : AluIn := { v := dmValue s (objAddr o s), a := s.a, z := s.z, c := s.c }
      f i = mtstOut m i) :
    ∃ t, onRead o f s = .next t ∧ t.a = s.a ∧ t.c = s.c ∧ DataEffect o true none s t ∧
      (t.z = true ↔ ∃ k : Fin 4, m.getLsbD k = true ∧ (dmValue s (objAddr o s)).getLsbD k = false) := by
  obtain ⟨t, ht, hout⟩ := onRead_spec o f s hr
  rw [hf] at hout
  obtain ⟨ha, hz, hc, heffect⟩ := hout
  refine ⟨t, ht, ha, hc, heffect, ?_⟩
  rw [hz, mtstOut, decide_eq_true_iff]
  exact and_ne_mask_iff _ m

/-- What BTST obj.n does (44_mask_bit.md R336). -/
theorem runBtst_spec (o : Obj) (n : Fin 4) (s : State) (hr : Ready o s) :
    ∃ t, runBtst o n s = .next t ∧ t.a = s.a ∧ t.c = s.c ∧ DataEffect o true none s t ∧
      t.z = !(dmValue s (objAddr o s)).getLsbD n := by
  obtain ⟨t, ht, ha, hz, hc, heffect⟩ := onRead_spec o (btstOut n) s hr
  exact ⟨t, ht, ha, hc, heffect, hz⟩

/-- What BCLR obj.n does (44_mask_bit.md R337). -/
theorem runBclr_spec (o : Obj) (n : Fin 4) (s : State) (hr : Ready o s) :
    let v := dmValue s (objAddr o s)
    ∃ t, runBclr o n s = .next t ∧ (∀ k : Fin 4, t.a.getLsbD k = if k = n then false else v.getLsbD k) ∧
      t.z = decide (t.a.toNat = 0) ∧ t.c = s.c ∧ DataEffect o true (some t.a) s t := by
  intro v
  refine onRead_bits_spec (f := andOut (oneCold n)) hr rfl fun k => ?_
  rw [BitVec.getLsbD_and, oneCold_getLsbD]
  by_cases hk : k = n <;> simp [hk, v]

/-- What BSET obj.n does (44_mask_bit.md R338; D17). -/
theorem runBset_spec (o : Obj) (n : Fin 4) (s : State) (hr : Ready o s) :
    let v := dmValue s (objAddr o s)
    ∃ t, runBset o n s = .next t ∧ (∀ k : Fin 4, t.a.getLsbD k = if k = n then true else v.getLsbD k) ∧
      t.z = decide (t.a.toNat = 0) ∧ t.c = s.c ∧ DataEffect o true (some t.a) s t := by
  intro v
  rw [runBset, bsetOut_eq]
  refine onRead_bits_spec hr rfl fun k => ?_
  rw [BitVec.getLsbD_or, oneHot_getLsbD]
  by_cases hk : k = n <;> simp [hk, v]

/-- What BNOT obj.n does (44_mask_bit.md R339). -/
theorem runBnot_spec (o : Obj) (n : Fin 4) (s : State) (hr : Ready o s) :
    let v := dmValue s (objAddr o s)
    ∃ t, runBnot o n s = .next t ∧ (∀ k : Fin 4, t.a.getLsbD k = if k = n then !v.getLsbD k else v.getLsbD k) ∧
      t.z = decide (t.a.toNat = 0) ∧ t.c = s.c ∧ DataEffect o true (some t.a) s t := by
  intro v
  refine onRead_bits_spec (f := xorOut (oneHot n)) hr rfl fun k => ?_
  rw [BitVec.getLsbD_xor, oneHot_getLsbD]
  by_cases hk : k = n <;> simp [hk, v]

/-- What MMOV obj, #m, A.n does on the nX-4/300 (44_mask_bit.md R335; D19). -/
theorem runMmov_spec {f : IndFixed} {s : State} (m : Nibble) (n : Fin 4) (hcore : s.device.core = .nx300)
    (hr : Ready (.ind f.toInd) s) :
    let v := dmValue s (objAddr (.ind f.toInd) s)
    ∃ t, runMmov f m n s = .next t ∧
      (∀ k : Fin 4, t.a.getLsbD k = if m.getLsbD k then s.a.getLsbD n else v.getLsbD k) ∧
      t.z = decide (t.a.toNat = 0) ∧ t.c = s.c ∧ DataEffect (.ind f.toInd) true (some t.a) s t := by
  rw [runMmov, only300, hcore]
  exact onRead_bits_spec hr rfl (mmovResult_getLsbD _ m _)

/-! ## The instructions -/

/-- Settles O5: the primary instruction has the primary operation and operand form, of one meaning with the
instruction's own (`execView_primary`). -/
theorem secondSpellingsAgree : Obligations.SecondSpellingsAgree := by
  intro i s _
  calc exec i s
    _ = execView i.view s := exec_eq_execView i s
    _ = execView i.view.primary s := (execView_primary i.view s).symm
    _ = exec i.primary s := (exec_of_view (view_toInstr _) s).symm

/-- Settles O37: MTST with A and with the immediate as mask, and BTST. -/
theorem bitTestsRun : Obligations.BitTestsRun := by
  refine ⟨fun i o s hview hready => ?_, fun i o m s hview hready => ?_, fun i o n s hview hready => ?_⟩
  · rw [exec_of_view hview]
    exact onRead_mtstOut_spec hready rfl
  · rw [exec_of_view hview]
    exact onRead_mtstOut_spec hready rfl
  · rw [exec_of_view hview]
    exact runBtst_spec (immObj o) n s hready

/-- Settles O38: one case per operation. -/
theorem bitWritesRun : Obligations.BitWritesRun := by
  intro i op o n s hview hop hready
  rw [exec_of_view hview]
  simp only [List.mem_cons, List.not_mem_nil, or_false] at hop
  rcases hop with rfl | rfl | rfl
  · exact runBclr_spec (immObj o) n s hready
  · exact runBset_spec (immObj o) n s hready
  · exact runBnot_spec (immObj o) n s hready

/-- Settles O39: BMOV is MMOV with the selector of bit `j` as mask, which marks bit `j` alone. -/
theorem bitMovesRun : Obligations.BitMovesRun := by
  intro i f m j n s hcore hready
  refine ⟨fun hview => ?_, fun hview => ?_⟩
  · rw [exec_of_view hview]
    exact runMmov_spec m n hcore hready
  · rw [exec_of_view hview, execView, runBmov_eq]
    obtain ⟨t, ht, hbits, hrest⟩ := runMmov_spec (oneHot j) n hcore hready
    refine ⟨t, ht, fun k => ?_, hrest⟩
    simpa only [oneHot_getLsbD, decide_eq_true_eq] using hbits k

end Sys2Proof.Machine
end

section
/-! The 8-bit transfers of 45_rom_ext_transfer.md. What each does is `runRom_spec`, `runXmLoad_spec` and
`runXmStore_spec`, on the form of the instruction; what is left is which byte of the program memory word is taken, and
which byte a read of external memory gives. The two forms of the address outside data memory, RA and the second word,
are `farAddr`. -/

namespace Sys2Proof.Machine

/-! ## The words of an instruction and the bytes it loads -/

/-- An instruction has as many words as its operation and operand form say (30_encoding.md R120). -/
theorem words_of_view {i : Instr} {v : View} (h : i.view = v) : i.words = v.words := congrArg View.words h

/-- MOVHB takes bits 15 to 8 of the word (20_memory.md R80 (b)). -/
theorem romByte_hb_toNat (w : Word) : (romByte .hb w).toNat = w.toNat / 256 := by
  have hw := w.isLt
  rw [romByte, extract_toNat]
  omega

/-- MOVLB takes bits 7 to 0 of the word (20_memory.md R80 (b)). -/
theorem romByte_lb_toNat (w : Word) : (romByte .lb w).toNat = w.toNat % 256 := by
  rw [romByte, extract_toNat]
  omega

/-- Plain storage that holds a byte answers it (20_memory.md R79). -/
theorem xmValue_of_stored {s : State} {x : Word} {b : Byte} (hstorage : xmIsStorage s x = true)
    (hb : Memory.read s.xm x.toNat = some b) : xmValue s x = b := by
  rw [xmValue, if_pos hstorage, hb, Option.getD_some]

/-! ## The instructions -/

/-- Settles O40: the byte is the half of the word that the instruction names. -/
theorem romTransfersRun : Obligations.RomTransfersRun := by
  intro i h m f w s hview hready hword
  have hfar : pmRead s (farAddr f s) = some w := by cases f <;> exact hword
  obtain ⟨t, ht, heffect⟩ := runRom_spec h m f w s hready hfar
  rw [exec_of_view hview, words_of_view hview]
  refine ⟨t, romByte h w, ht, ?_, heffect⟩
  cases h with
  | hb => exact romByte_hb_toNat w
  | lb => exact romByte_lb_toNat w

/-- Settles O41: the byte is the one the read of the external address gives. -/
theorem externalLoadsRun : Obligations.ExternalLoadsRun := by
  intro i m f s hview hready x
  have hfar : farAddr f s = x := by cases f <;> rfl
  obtain ⟨t, ht, heffect⟩ := runXmLoad_spec m f s hready
  rw [hfar] at heffect
  rw [exec_of_view hview, words_of_view hview]
  exact ⟨t, xmValue s x, ht, heffect, fun c hstorage hc => xmValue_of_stored hstorage hc⟩

/-- Settles O42: the effect of a store form, at the address of each form. -/
theorem externalStoresRun : Obligations.ExternalStoresRun := by
  intro i m f s hview hready
  rw [exec_of_view hview, words_of_view hview]
  cases f with
  | ra => exact runXmStore_spec m .ra s hready
  | adr x => exact runXmStore_spec m (.adr x) s hready

end Sys2Proof.Machine
end

section
/-! The register stack and the flags of 46_stack_flag.md. A PUSH is `regPush` of the word `pushWord`, a POP is `restoreHl`
or `restoreXy` of the slot below RSP, and restoring a pushed word gives back the nibbles it was made of
(`restoreHl_pushWord`, `restoreXy_pushWord`). FCLR and FSET are `setFlags`. -/

namespace Sys2Proof.Machine

/-! ## A word of four nibbles -/

theorem nibbles_toNat (a b c d : Nibble) :
    (a ++ b ++ c ++ d).toNat = 4096 * a.toNat + 256 * b.toNat + 16 * c.toNat + d.toNat := by
  simp only [append_toNat]
  omega

/-- Four nibbles side by side are read back one by one. -/
theorem extract_nibbles (a b c d : Nibble) :
    (a ++ b ++ c ++ d).extractLsb' 12 4 = a ∧ (a ++ b ++ c ++ d).extractLsb' 8 4 = b ∧
      (a ++ b ++ c ++ d).extractLsb' 4 4 = c ∧ (a ++ b ++ c ++ d).extractLsb' 0 4 = d := by
  have ha := a.isLt
  have hb := b.isLt
  have hc := c.isLt
  have hd := d.isLt
  refine ⟨?_, ?_, ?_, ?_⟩ <;>
    apply BitVec.eq_of_toNat_eq <;>
    rw [extract_toNat, nibbles_toNat] <;>
    omega

theorem highNibble_eq_ofNat (w : Word) : w.extractLsb' 12 4 = BitVec.ofNat 4 (w.toNat / 4096) := by
  rw [BitVec.extractLsb', Nat.shiftRight_eq_div_pow]

theorem highNibble_toNat (w : Word) : (w.extractLsb' 12 4).toNat = w.toNat / 4096 := by
  have hw := w.isLt
  rw [extract_toNat]
  omega

theorem lowNibble_toNat (w : Word) : (w.extractLsb' 0 4).toNat = w.toNat % 16 := by
  rw [extract_toNat]
  omega

/-! ## PUSH -/

/-- The word a PUSH saves (46_stack_flag.md R400, R401; D7). -/
def pushWord (p : Pair) (s : State) : Word :=
  match p with
  | .hl => flagPack s.z s.c s.g ++ s.a ++ s.h ++ s.l
  | .xy => s.ebr ++ s.cbr ++ s.x ++ s.y

theorem exec_push {i : Instr} {p : Pair} (hview : i.view = .push p) (s : State) :
    exec i s = .next (advance 1 (regPush (pushWord p s) s)) := by
  rw [exec_of_view hview]
  cases p <;> rfl

@[simp] theorem regSlot_advance (n : Nat) (s : State) (k : Nibble) : regSlot (advance n s) k = regSlot s k := rfl

/-- What a PUSH does (46_stack_flag.md R400, R401; 10_state.md R34). -/
theorem exec_push_spec {i : Instr} {p : Pair} (hview : i.view = .push p) (s : State) :
    ∃ t, exec i s = .next t ∧ t = { s with rsp := s.rsp + 1, pc := s.pc + 1, rstack := t.rstack } ∧
      ∀ k, regSlot t k = if k = s.rsp then pushWord p s else regSlot s k :=
  ⟨_, exec_push hview s, rfl, fun k => (regSlot_advance 1 _ k).trans (regSlot_regPush (pushWord p s) s k)⟩

/-- Settles O43: both are `exec_push_spec`, and `pushWord` is the word of each. -/
theorem pushRuns : Obligations.PushRuns :=
  fun s => ⟨exec_push_spec (p := .hl) rfl s, exec_push_spec (p := .xy) rfl s⟩

/-! ## POP -/

theorem exec_popHl (s : State) :
    exec .popHl s = .next (advance 1 (restoreHl (regSlot s (s.rsp - 1)) { s with rsp := s.rsp - 1 })) :=
  exec_of_view (v := .pop .hl) rfl s

theorem exec_popXy (s : State) :
    exec .popXy s = .next (advance 1 (restoreXy (regSlot s (s.rsp - 1)) { s with rsp := s.rsp - 1 })) :=
  exec_of_view (v := .pop .xy) rfl s

/-- Settles O44: the fields of the restored word are nibbles of its number. -/
theorem popRuns : Obligations.PopRuns := by
  intro s w
  refine ⟨⟨_, exec_popHl s, rfl, ?flags, ?a, ?h, ?l⟩, ⟨_, exec_popXy s, rfl, ?ebr, ?cbr, ?x, ?y⟩⟩
  case flags => exact congrArg flagUnpack (highNibble_eq_ofNat _)
  case ebr => exact highNibble_toNat _
  case a | cbr => exact extract_toNat _ 8 4
  case h | x => exact extract_toNat _ 4 4
  case l | y => exact lowNibble_toNat _

/-! ## A POP after its PUSH -/

/-- Restoring what PUSH HL saved: the flags come back through `flagUnpack_flagPack`. -/
theorem restoreHl_pushWord (s u : State) :
    restoreHl (pushWord .hl s) u = { u with z := s.z, c := s.c, g := s.g, a := s.a, h := s.h, l := s.l } := by
  obtain ⟨hflag, ha, hh, hl⟩ := extract_nibbles (flagPack s.z s.c s.g) s.a s.h s.l
  rw [restoreHl, pushWord, hflag, ha, hh, hl, flagUnpack_flagPack]

/-- Restoring what PUSH XY saved. -/
theorem restoreXy_pushWord (s u : State) :
    restoreXy (pushWord .xy s) u = { u with ebr := s.ebr, cbr := s.cbr, x := s.x, y := s.y } := by
  obtain ⟨hebr, hcbr, hx, hy⟩ := extract_nibbles s.ebr s.cbr s.x s.y
  rw [restoreXy, pushWord, hebr, hcbr, hx, hy]

theorem regSlot_congr {s t : State} (h : s.rstack = t.rstack) (k : Nibble) : regSlot s k = regSlot t k := by
  rw [regSlot, regSlot, h]

/-- Where the register stack and RSP of a PUSH still stand, the slot below RSP is the one it wrote. -/
theorem slot_below_rsp_of_push {i : Instr} {p : Pair} {s t u : State} (hview : i.view = .push p)
    (ht : exec i s = .next t) (hstack : u.rstack = t.rstack) (hrsp : u.rsp = t.rsp) :
    u.rsp - 1 = s.rsp ∧ regSlot u (u.rsp - 1) = pushWord p s := by
  obtain ⟨t', ht', hframe, hslots⟩ := exec_push_spec hview s
  cases ht'.symm.trans ht
  have hbelow : u.rsp - 1 = s.rsp := by
    rw [hrsp, hframe]
    exact BitVec.add_sub_cancel s.rsp 1
  refine ⟨hbelow, ?_⟩
  rw [hbelow, regSlot_congr hstack, hslots, if_pos rfl]

/-- Settles O45: the POP restores the word the PUSH made. -/
theorem popUndoesPush : Obligations.PopUndoesPush := by
  intro s u
  refine ⟨fun t ht hstack hrsp => ?_, fun t ht hstack hrsp => ?_⟩
  · obtain ⟨hbelow, hslot⟩ := slot_below_rsp_of_push (p := .hl) rfl ht hstack hrsp
    rw [exec_popHl, hslot, restoreHl_pushWord]
    exact ⟨_, rfl, rfl, rfl, rfl, rfl, rfl, rfl, hbelow⟩
  · obtain ⟨hbelow, hslot⟩ := slot_below_rsp_of_push (p := .xy) rfl ht hstack hrsp
    rw [exec_popXy, hslot, restoreXy_pushWord]
    exact ⟨_, rfl, rfl, rfl, rfl, rfl, hbelow⟩

/-! ## FCLR and FSET -/

theorem only300_of_300 {s : State} (hcore : s.device.core = .nx300) (e : Exec) : only300 s e = e := by
  rw [only300, hcore]

/-- FCLR clears what it names; FCLR FLAG asks for the nX-4/300 (46_stack_flag.md R404 to R407). -/
theorem exec_fclr {i : Instr} {f : FlagSel} (hview : i.view = .fclr f) {s : State}
    (hcore : f = .flag → s.device.core = .nx300) : exec i s = .next (advance 1 (setFlags f false s)) := by
  rw [exec_of_view hview]
  cases f with
  | flag => exact only300_of_300 (hcore rfl) _
  | c | z | g => rfl

/-- FSET sets what it names; FSET FLAG asks for the nX-4/300 (46_stack_flag.md R408 to R411). -/
theorem exec_fset {i : Instr} {f : FlagSel} (hview : i.view = .fset f) {s : State}
    (hcore : f = .flag → s.device.core = .nx300) : exec i s = .next (advance 1 (setFlags f true s)) := by
  rw [exec_of_view hview]
  cases f with
  | flag => exact only300_of_300 (hcore rfl) _
  | c | z | g => rfl

/-- Settles O46: the effects are `exec_fclr` and `exec_fset`, the refusals those of `refusedOn250`; words, lengths and
cycles are those of the tables. -/
theorem flagInstructionsRun : Obligations.FlagInstructionsRun := by
  intro s
  refine ⟨exec_fclr (f := .c) rfl nofun, exec_fclr (f := .z) rfl nofun, exec_fclr (f := .g) rfl nofun,
    exec_fset (f := .c) rfl nofun, exec_fset (f := .z) rfl nofun, exec_fset (f := .g) rfl nofun,
    fun hcore => ⟨exec_fclr (f := .flag) rfl fun _ => hcore, exec_fset (f := .flag) rfl fun _ => hcore⟩,
    fun hcore => ⟨(refusedOn250 .fclrFlag s hcore).2 rfl, (refusedOn250 .fsetFlag s hcore).2 rfl⟩,
    rfl, rfl, rfl, rfl, rfl, rfl, rfl, rfl, ?either, ?only⟩
  case either =>
    intro i hi
    simp only [List.mem_cons, List.not_mem_nil, or_false] at hi
    rcases hi with rfl | rfl | rfl | rfl | rfl | rfl <;> exact ⟨rfl, rfl, fun _ => rfl⟩
  case only =>
    intro i hi
    simp only [List.mem_cons, List.not_mem_nil, or_false] at hi
    rcases hi with rfl | rfl <;> exact ⟨rfl, rfl, fun _ => rfl⟩

end Sys2Proof.Machine
end

section
/-! Branches, calls and returns of 47_branch_call.md. Each replaces the program counter: a jump by its target, a branch
by its target where `condHolds` says so, a call after `callPush`, a return as `callReturn` does. A return from a state
that still has the stack of a call finds the address the call saved (`callReturn_of_callPush`). -/

namespace Sys2Proof.Machine

/-! ## Targets as numbers -/

theorem next_toNat (s : State) : (s.pc + 1).toNat = (s.pc.toNat + 1) % 65536 := BitVec.toNat_add s.pc 1

/-- The target of JMP PC+A: A counts unsigned (47_branch_call.md R423). -/
theorem pcPlusA_toNat (s : State) : (s.pc + 1 + s.a.setWidth 16).toNat = (s.pc.toNat + 1 + s.a.toNat) % 65536 := by
  have ha : (s.a.setWidth 16).toNat = s.a.toNat := BitVec.toNat_setWidth_of_le (by decide)
  rw [BitVec.toNat_add, next_toNat, ha, Nat.mod_add_mod]

/-! ## Jumps -/

theorem exec_ljmp (w : Word) (s : State) : exec (.ljmp w) s = .next { s with pc := w } :=
  exec_of_view (v := .ljmp w) rfl s

theorem exec_jmp (a : BitVec 12) (s : State) : exec (.jmp a) s = .next { s with pc := pageAddr s a } :=
  exec_of_view (v := .jmp a) rfl s

theorem exec_sjmp (d : Byte) (s : State) : exec (.sjmp d) s = .next { s with pc := relTarget s d } :=
  exec_of_view (v := .sjmp d) rfl s

theorem exec_jmpPcA (s : State) : exec .jmpPcA s = .next { s with pc := s.pc + 1 + s.a.setWidth 16 } :=
  exec_of_view (v := .jmpPcA) rfl s

/-- Settles O47: the targets as numbers are `pageAddr_toNat`, `relTarget_toNat` and `pcPlusA_toNat`. -/
theorem jumpsRun : Obligations.JumpsRun := fun s w a d =>
  ⟨exec_ljmp w s, ⟨_, exec_jmp a s, rfl, pageAddr_toNat s a⟩, ⟨_, exec_sjmp d s, rfl, relTarget_toNat s d⟩,
    ⟨_, exec_jmpPcA s, rfl, pcPlusA_toNat s⟩⟩

/-! ## Conditional branches -/

/-- A branch whose condition is put as `taken` goes where `taken` says. -/
theorem runBranch_spec {b : Cond} {s : State} {taken : Prop} (d : Byte) (hcond : condHolds b s = true ↔ taken) :
    ∃ t, runBranch b d s = .next t ∧ t = { s with pc := t.pc } ∧
      (taken → (t.pc.toNat : Int) = (s.pc.toNat + 1 + d.toInt) % 65536) ∧
      (¬ taken → t.pc.toNat = (s.pc.toNat + 1) % 65536) := by
  refine ⟨_, rfl, rfl, fun h => ?_, fun h => ?_⟩
  · rw [if_pos (hcond.mpr h)]
    exact relTarget_toNat s d
  · rw [if_neg (mt hcond.mp h)]
    exact next_toNat s

/-- Settles O48: `condHolds` is the condition of each spelling. -/
theorem branchesRun : Obligations.BranchesRun := by
  intro i b d s hview
  rw [exec_of_view hview]
  refine runBranch_spec d ?_
  cases b with
  | bc | blt | bz | beq => exact Iff.rfl
  | bng | bnc | bge | bnz | bne | ble | bgt => simp [condHolds]

/-! ## Calls -/

theorem exec_lcal (w : Word) (s : State) : exec (.lcal w) s = .next { callPush (s.pc + 1) s with pc := w } :=
  exec_of_view (v := .lcal w) rfl s

theorem exec_cal (a : BitVec 12) (s : State) : exec (.cal a) s = .next { callPush s.pc s with pc := pageAddr s a } :=
  exec_of_view (v := .cal a) rfl s

/-- Settles O49: the slots after a call are those of `callSlot_callPush`. -/
theorem callsRun : Obligations.CallsRun := fun s w a =>
  ⟨⟨_, exec_lcal w s, rfl, callSlot_callPush (s.pc + 1) s⟩,
    ⟨_, exec_cal a s, rfl, pageAddr_toNat s a, callSlot_callPush s.pc s⟩⟩

/-! ## Returns -/

theorem exec_rt (s : State) : exec .rt s = .next (callReturn s) := exec_of_view (v := .rt) rfl s

theorem exec_rti (s : State) : exec .rti s = .next { callReturn s with mie := true } := exec_of_view (v := .rti) rfl s

theorem exec_rtnmi (s : State) : exec .rtnmi s = .next { callReturn s with mie := s.mieSaved } :=
  exec_of_view (v := .rtnmi) rfl s

/-- Settles O50: the three returns are `callReturn`, with MIE as each rule says. -/
theorem returnsRun : Obligations.ReturnsRun := fun s => ⟨exec_rt s, exec_rti s, exec_rtnmi s⟩

/-! ## A return after what it returns from -/

theorem callSlot_congr {s t : State} (h : s.cstack = t.cstack) (k : BitVec 5) : callSlot s k = callSlot t k := by
  rw [callSlot, callSlot, h]

/-- Where the call stack and SP of a save still stand, a return goes to the address after the saved one, with SP as
before the save (10_state.md R32, R33). -/
theorem callReturn_of_callPush {s u : State} {w : Word} (hstack : u.cstack = (callPush w s).cstack)
    (hsp : u.sp = (callPush w s).sp) : (callReturn u).pc = w + 1 ∧ (callReturn u).sp = s.sp := by
  have hbelow : u.sp - 1 = s.sp := by
    rw [hsp, callPush_sp]
    exact BitVec.add_sub_cancel s.sp 1
  refine ⟨?_, hbelow⟩
  rw [callReturn_pc, hbelow, callSlot_congr hstack, callSlot_callPush, if_pos rfl]

/-- Settles O51: RT finds what `callPush` saved, the address of the call's last word. -/
theorem returnAfterCall : Obligations.ReturnAfterCall := by
  intro s u w a
  refine ⟨fun t ht hstack hsp => ?lcal, fun t ht hstack hsp => ?cal⟩
  case lcal =>
    cases (exec_lcal w s).symm.trans ht
    obtain ⟨hpc, hsp⟩ := callReturn_of_callPush (w := s.pc + 1) hstack hsp
    exact ⟨_, exec_rt u, hpc.trans (BitVec.add_assoc s.pc 1 1), hsp⟩
  case cal =>
    cases (exec_cal a s).symm.trans ht
    exact ⟨_, exec_rt u, callReturn_of_callPush (w := s.pc) hstack hsp⟩

end Sys2Proof.Machine
end

section
/-! The control instructions of 48_control.md. Each is its operation in one `advance`; HALT and MSA look first, at the
word that follows and at the device, and have one lemma per answer. -/

namespace Sys2Proof.Machine

/-! ## HALT -/

/-- HALT before a NOP enters halt mode (48_control.md R461). -/
theorem runHalt_of_nop {s : State} (hnop : pmRead s (s.pc + 1) = some 0) :
    runHalt s = .next (advance 1 { s with halted := true }) := by
  simp only [runHalt, hnop, if_true]

/-- HALT before any other word has no outcome in the spec (D42). -/
theorem runHalt_of_not_nop {s : State} {w : Word} (hw : pmRead s (s.pc + 1) = some w) (hne : w ≠ 0) :
    runHalt s = .refused .haltNotFollowedByNop := by
  simp only [runHalt, hw, if_neg hne]

/-- Settles O53: HALT looks at the word after it. -/
theorem haltRuns : Obligations.HaltRuns := by
  intro s
  rw [exec_of_view (v := .halt) rfl]
  exact ⟨runHalt_of_nop, fun _ => runHalt_of_not_nop⟩

/-! ## MSA -/

/-- The melody circuit is told the address (48_control.md R464). -/
theorem runMsa_of_melody {s : State} (h : s.device.melody = true) (w : Word) :
    runMsa w s = .next (advance 2 { s with trace := .melodyStart w :: s.trace }) := if_pos h

/-- Without a melody circuit MSA has no outcome in the spec (D40). -/
theorem runMsa_of_no_melody {s : State} (h : s.device.melody = false) (w : Word) :
    runMsa w s = .refused .melodyCircuitAbsent := if_neg (Bool.eq_false_iff.1 h)

/-- Settles O54: MSA asks the device for a melody circuit. -/
theorem melodyStartRuns : Obligations.MelodyStartRuns := by
  intro s w
  rw [exec_of_view (v := .msa w) rfl]
  exact ⟨fun h => runMsa_of_melody h w, fun h => runMsa_of_no_melody h w⟩

/-! ## NOP, EI, DI and MOV reg, #i4 -/

/-- Settles O52: the operations of NOP, EI and DI look at nothing, so each effect is `execView` of its form. -/
theorem nopEiDiRun : Obligations.NopEiDiRun := fun s =>
  ⟨rfl, rfl, rfl, fun _ => rfl, exec_of_view (v := .nop) rfl s, exec_of_view (v := .ei) rfl s,
    exec_of_view (v := .di) rfl s⟩

/-- MOV reg, #i4 writes the register it names (48_control.md R465). -/
theorem exec_movReg {i : Instr} (r : Reg) (y : Nibble) (hview : i.view = .movReg r y) (s : State) :
    exec i s = .next (advance 1 (setReg r y s)) := exec_of_view hview s

/-- MOV reg, #i4 is one word and one cycle on either core, whatever the register. -/
theorem movReg_length {i : Instr} {r : Reg} {y : Nibble} (hview : i.view = .movReg r y) :
    i.words = 1 ∧ i.cycles = 1 ∧ ∀ c, i.providedOn c = true := by
  simp only [Instr.words, Instr.cycles, Instr.providedOn, hview]
  exact ⟨rfl, rfl, fun _ => rfl⟩

/-- Settles O55: the effects are `exec_movReg` at each register, the words those of the tables. -/
theorem movRegisterRuns : Obligations.MovRegisterRuns := by
  intro s y
  refine ⟨exec_movReg .ebr y rfl s, exec_movReg .cbr y rfl s, exec_movReg .y y rfl s,
    exec_movReg .x y rfl s, exec_movReg .l y rfl s, exec_movReg .h y rfl s,
    exec_movReg .ra0 y rfl s, exec_movReg .ra1 y rfl s, exec_movReg .ra2 y rfl s,
    exec_movReg .ra3 y rfl s, rfl, rfl, rfl, rfl, rfl, rfl, rfl, rfl, rfl, rfl, ?lengths⟩
  case lengths =>
    intro i hi
    simp only [List.mem_cons, List.not_mem_nil, or_false] at hi
    rcases hi with rfl | rfl | rfl | rfl | rfl | rfl | rfl | rfl | rfl | rfl <;> exact movReg_length rfl

end Sys2Proof.Machine
end

section
/-! The instruction boundary of 60_exceptions.md and 70_reset_and_hazards.md. A boundary resets, or stays in halt mode,
or goes on with HALTED = 0 (`stepUnder_reset`, `stepUnder_asleep`, `stepUnder_released`); one that goes on accepts a
request or executes (`boundary_nmi`, `boundary_irq`, `boundary_no_request`). Both acceptances are
`enterInterrupt`, a save of `pc - 1` on the call stack, which the returns of 47_branch_call.md undo
(`callReturn_of_callPush`). -/

namespace Sys2Proof.Machine

/-! ## Halt mode at a boundary -/

/-- A core that is not halted, or is woken, goes on with HALTED = 0 (60_exceptions.md R521). -/
theorem wakeUp_of_released {e : Stimulus} {s : State} (h : s.halted = false ∨ e.wake = true) :
    wakeUp e s = { s with halted := false } := by
  unfold wakeUp
  split
  case isTrue => rfl
  case isFalse hwake => rw [← h.resolve_right hwake]

theorem wakeUp_of_not_wake {e : Stimulus} (h : e.wake = false) (s : State) : wakeUp e s = s := by
  simp [wakeUp, h]

@[simp] theorem wakeUp_mie (e : Stimulus) (s : State) : (wakeUp e s).mie = s.mie := by
  unfold wakeUp
  split <;> rfl

/-! ## What a boundary does -/

/-- A reset input overrides everything (70_reset_and_hazards.md R551). -/
theorem stepUnder_reset {e : Stimulus} (h : e.reset = true) (s : State) : stepUnder e s = .next (systemReset s) :=
  if_pos h

/-- A halted core that is not woken stays as it is (60_exceptions.md R520; D43). -/
theorem stepUnder_asleep {e : Stimulus} {s : State} (hreset : e.reset = false) (hwake : e.wake = false)
    (hhalt : s.halted = true) : stepUnder e s = .next s := by
  simp [stepUnder, hreset, wakeUp_of_not_wake hwake, hhalt]

/-- A core that is not halted, or is woken first, comes to the boundary rule (60_exceptions.md R521; D36). -/
theorem stepUnder_released {e : Stimulus} {s : State} (hreset : e.reset = false)
    (h : s.halted = false ∨ e.wake = true) : stepUnder e s = boundary e { s with halted := false } := by
  simp [stepUnder, hreset, wakeUp_of_released h]

/-- The step of a core that is not halted, or is woken, under the head of its schedule. -/
theorem step_released {s : State} {e : Stimulus} {rest : List Stimulus} (henv : s.env = e :: rest)
    (hreset : e.reset = false) (h : s.halted = false ∨ e.wake = true) :
    step s = boundary e { s with env := rest, halted := false } := by
  have h' : ({ s with env := rest } : State).halted = false ∨ e.wake = true := h
  rw [step_cons henv, stepUnder_released hreset h']

/-! ## The boundary rule (60_exceptions.md R505, R509) -/

theorem boundary_nmi {e : Stimulus} {v : StartAddress} (h : e.nmi = some v) (s : State) :
    boundary e s = .next (acceptNmi v s) := by
  simp only [boundary, h]

theorem boundary_irq {e : Stimulus} {s : State} {v : StartAddress} (hnmi : e.nmi = none) (hirq : e.irq = some v)
    (hmie : s.mie = true) : boundary e s = .next (acceptIrq v s) := by
  simp only [boundary, hnmi, hirq, hmie, if_true]

theorem boundary_no_request {e : Stimulus} (hnmi : e.nmi = none) (hirq : e.irq = none) (s : State) :
    boundary e s = execute s := by
  simp only [boundary, hnmi, hirq]

/-- With MIE = 0 a maskable request makes no difference to the boundary rule. -/
theorem boundary_masked {s : State} (hmie : s.mie = false) (e : Stimulus) :
    boundary e s = boundary { e with irq := none } s := by
  obtain hnmi | ⟨v, hnmi⟩ := Option.eq_none_or_eq_some e.nmi
  case inl =>
    rw [boundary_no_request (e := { e with irq := none }) hnmi rfl]
    obtain hirq | ⟨v, hirq⟩ := Option.eq_none_or_eq_some e.irq
    · exact boundary_no_request hnmi hirq s
    · simp [boundary, hnmi, hirq, hmie]
  case inr => rw [boundary_nmi hnmi, boundary_nmi (e := { e with irq := none }) hnmi]

/-- Nor to the boundary: waking comes before the boundary rule and leaves MIE alone. -/
theorem stepUnder_masked {s : State} (hmie : s.mie = false) (e : Stimulus) :
    stepUnder e s = stepUnder { e with irq := none } s := by
  have hwoken : (wakeUp e s).mie = false := (wakeUp_mie e s).trans hmie
  have hsame : wakeUp { e with irq := none } s = wakeUp e s := rfl
  simp only [stepUnder, hsame, boundary_masked hwoken e]

/-! ## Reset, masked requests, halt mode -/

theorem coreRegValue_systemReset (r : CoreReg) (s : State) :
    coreRegValue r (systemReset s) = coreRegValue r State.reset := by
  cases r <;> rfl

/-- Settles O14: the step is a system reset, which takes the core from the reset state and the rest from the state
before it. -/
theorem systemResetStep : Obligations.SystemResetStep := by
  intro s e rest henv hreset
  have hstep : step s = .next (systemReset { s with env := rest }) := by rw [step_cons henv, stepUnder_reset hreset]
  exact ⟨_, hstep, rfl, rfl, rfl, rfl, fun r => coreRegValue_systemReset r _, rfl, rfl, rfl, rfl, rfl, rfl, rfl⟩

/-- Settles O17: the boundary rule, and so the boundary, is the same without the request. -/
theorem maskedRequestWaits : Obligations.MaskedRequestWaits := by
  intro s e rest henv hmie
  have hmie' : ({ s with env := rest } : State).mie = false := hmie
  rw [step_cons henv, step_cons rfl, stepUnder_masked hmie' e]

/-- An empty schedule presents neither a reset nor a wake-up, as a head without them does not. -/
theorem headD_quiet_asleep {env : List Stimulus} (h : ∀ e ∈ env.head?, e.reset = false ∧ e.wake = false) :
    (env.headD .quiet).reset = false ∧ (env.headD .quiet).wake = false := by
  cases env with
  | nil => exact ⟨rfl, rfl⟩
  | cons e rest => exact h e rfl

/-- Settles O18: a halted core that nothing wakes stays as it is; one that is woken with no request executes. -/
theorem haltModeStep : Obligations.HaltModeStep := by
  refine ⟨fun s hhalt hhead => ?asleep, fun s e rest henv hreset hwake hnmi hirq => ?woken⟩
  case asleep =>
    obtain ⟨hreset, hwake⟩ := headD_quiet_asleep hhead
    have hhalt' : ({ s with env := s.env.tail } : State).halted = true := hhalt
    rw [step_eq_stepUnder, stepUnder_asleep hreset hwake hhalt']
  case woken =>
    rw [step_released henv hreset (.inr hwake), boundary_no_request hnmi hirq]

/-! ## Acceptance of an interrupt -/

/-- What a call stack slot holds after an entry (60_exceptions.md R506; D18). -/
theorem callSlot_enterInterrupt (v : StartAddress) (s : State) (k : BitVec 5) :
    callSlot (enterInterrupt v s) k = if k = s.sp then s.pc - 1 else callSlot s k :=
  callSlot_callPush (s.pc - 1) s k

/-- Settles O15: the boundary accepts, with HALTED released first, and the slots are those of
`callSlot_enterInterrupt`. -/
theorem maskableEntry : Obligations.MaskableEntry := by
  intro s e rest v henv hreset hnmi hirq hmie hreleased
  have hstep := (step_released henv hreset hreleased).trans (boundary_irq hnmi hirq hmie)
  exact ⟨_, hstep, rfl, callSlot_enterInterrupt v _⟩

/-- Settles O16: as O15, with no look at MIE or at a maskable request. -/
theorem nonMaskableEntry : Obligations.NonMaskableEntry := by
  intro s e rest v henv hreset hnmi hreleased
  have hstep := (step_released henv hreset hreleased).trans (boundary_nmi hnmi _)
  exact ⟨_, hstep, rfl, callSlot_enterInterrupt v _⟩

/-! ## The return from an interrupt -/

/-- Where the call stack and SP of an entry still stand, a return goes on at the restart address, with SP as before
the entry (60_exceptions.md R506, R510; D18). -/
theorem callReturn_of_enterInterrupt {s u : State} {v : StartAddress}
    (hstack : u.cstack = (enterInterrupt v s).cstack) (hsp : u.sp = (enterInterrupt v s).sp) :
    (callReturn u).pc = s.pc ∧ (callReturn u).sp = s.sp := by
  obtain ⟨hpc, hsp'⟩ := callReturn_of_callPush (w := s.pc - 1) hstack hsp
  exact ⟨hpc.trans (BitVec.sub_add_cancel s.pc 1), hsp'⟩

/-- Settles O19: RTI sets MIE, which was 1 for a maskable request to be accepted; RTNMI takes it from MIE_SAVED,
where the entry kept it. -/
theorem returnsResume : Obligations.ReturnsResume := by
  intro s u v _
  refine ⟨fun hmie hstack hsp => ?rti, fun hstack hsp hsaved => ?rtnmi⟩
  case rti =>
    obtain ⟨hpc, hsp'⟩ := callReturn_of_enterInterrupt (v := v) hstack hsp
    exact ⟨_, exec_rti u, hpc, hsp', hmie.symm⟩
  case rtnmi =>
    obtain ⟨hpc, hsp'⟩ := callReturn_of_enterInterrupt (v := v) hstack hsp
    exact ⟨_, exec_rtnmi u, hpc, hsp', hsaved.trans (acceptNmi_mieSaved v s)⟩

end Sys2Proof.Machine
end
